-- ==== Sys2Proof/Word.lean ====
section
/-! DEFINITION. The words of the machine: bytes, 16-bit words, 12-bit addresses, 4-bit fields, and exact seconds
(00_scope.md R9 to R11, decision D13). -/

namespace Sys2Proof

/-- A register's contents, a memory cell, the field `kk`. -/
abbrev Byte := BitVec 8

/-- An instruction word, the program counter, a stack slot (R11). -/
abbrev Word := BitVec 16

/-- The field `addr`, the index register I (R22). -/
abbrev Addr := BitVec 12

/-- The fields `x`, `y` and `n` (R81). -/
abbrev Nibble := BitVec 4

/-- An exact non-negative rational number of seconds (R9, D13). -/
structure Seconds where
  val : Rat := 0
  nonneg : 0 ≤ val := by decide
  deriving DecidableEq, Repr, Inhabited

/-- No time at all. -/
def Seconds.zero : Seconds := ⟨0, by decide⟩

/-- `n / d` seconds. -/
def Seconds.frac (n d : Nat) : Seconds :=
  ⟨mkRat n d, by rw [Rat.mkRat_eq_divInt]; exact Rat.divInt_nonneg (by omega) (by omega)⟩

/-- The exact sum. -/
def Seconds.add (a b : Seconds) : Seconds := ⟨a.val + b.val, Rat.add_nonneg a.nonneg b.nonneg⟩

/-- `a` is at most `b`. -/
abbrev Seconds.le (a b : Seconds) : Prop := a.val ≤ b.val

end Sys2Proof
end

