-- ==== Sys2Proof/Config.lean ====
section
/-! DEFINITION. What an implementation fixes (the parameters of 00_scope.md R4 to R11 that 92_eei_decisions.md leaves
OPEN) and the free values: the inputs of a tick that the driver chooses (R14) and that nothing constrains.
A Config is a field of State (assumption 4), so a theorem about every state is a theorem about every configuration. -/

namespace Sys2Proof

/-- The readings of a shift by 8 or more that R146 and D16 permit. -/
inductive ShiftWide where
  /-- The literal reading and the default: every bit is shifted out. -/
  | zero
  /-- The amount is reduced modulo 8. -/
  | mod8
  /-- The form is refused. -/
  | refuse
  deriving DecidableEq, Repr

/-- The timer rules that R187, R188(e) and D14 (with C3) give. -/
inductive TimerRule where
  /-- R187, the spec's rule and the default: TACC is compared as it stands. -/
  | threshold
  /-- The alternative recorded in C3: time since the last decrement. -/
  | sinceLast
  /-- The abstraction of R188(e): a free boolean decides. -/
  | free
  deriving DecidableEq, Repr

/-- The parameters a core is constructed with (R5, R7, R58, R146, D14). -/
structure Config where
  /-- `PROG_BASE`. -/
  progBase : Addr
  /-- `STACK_DEPTH`. -/
  stackDepth : Nat
  /-- `FONT`, glyph `d` at `5 × d`. -/
  font : Vector Byte 80
  /-- `ShiftWide`. -/
  shiftWide : ShiftWide
  /-- `TIMER_RULE`. -/
  timerRule : TimerRule
  deriving DecidableEq, Repr

/-- The inputs of one tick (R100): elapsed time, keypad snapshot (`true` = pressed, R191), random byte. -/
structure TickInput where
  dt : Seconds
  key : Vector Bool 16
  rnd : Byte
  deriving DecidableEq, Repr, Inhabited

/-- FREE VALUE (assumption 3): the inputs of a tick for which the driver has nothing pending, one for every value of
`State.draws`. It has no body, so no proof knows any of it (R144 "under no law", R213 "assume nothing"). -/
opaque Config.freeInput : Nat → TickInput

/-- FREE VALUE (assumption 11): the `fire` of R188(e), one for every value of `State.draws`; read under
`TimerRule.free` only. -/
opaque Config.freeFire : Nat → Bool

end Sys2Proof
end

