-- ==== Sys2Proof/Syntax.lean ====
section
/-! DEFINITION. The instructions: one constructor per row of spec/opcode_table.json, in the table's order
(30_encoding.md R85), with the operand fields of its format (R81 to R83). -/

namespace Sys2Proof

inductive Instr where
  /-- `CLS`, 00E0 (R120). -/
  | cls
  /-- `RET`, 00EE (R130). -/
  | ret
  /-- `JP addr`, 1nnn (R131). -/
  | jp (addr : Addr)
  /-- `CALL addr`, 2nnn (R132). -/
  | call (addr : Addr)
  /-- `SE Vx, kk`, 3xkk (R133). -/
  | se (x : Nibble) (kk : Byte)
  /-- `LD Vx, kk`, 6xkk (R140). -/
  | ldImm (x : Nibble) (kk : Byte)
  /-- `ADD Vx, kk`, 7xkk (R141). -/
  | addImm (x : Nibble) (kk : Byte)
  /-- `SHL Vx, Vy`, 8xyE (R142). -/
  | shl (x y : Nibble)
  /-- `SHR Vx, Vy`, 8xy6 (R143). -/
  | shr (x y : Nibble)
  /-- `LD I, addr`, Annn (R150). -/
  | ldI (addr : Addr)
  /-- `DRW Vx, Vy, n`, Dxyn (R121). -/
  | drw (x y n : Nibble)
  /-- `SKNP Vx`, ExA1 (R134). -/
  | sknp (x : Nibble)
  /-- `RND Vx, kk`, Cxkk (R144). -/
  | rnd (x : Nibble) (kk : Byte)
  /-- `LD Vx, DT`, Fx07 (R160). -/
  | ldVxDt (x : Nibble)
  /-- `LD DT, Vx`, Fx15 (R161). -/
  | ldDtVx (x : Nibble)
  /-- `LD F, Vx`, Fx29 (R151). -/
  | ldF (x : Nibble)
  /-- `LD B, Vx`, Fx33 (R152). -/
  | ldB (x : Nibble)
  /-- `LD Vx, [I]`, Fx65 (R153). -/
  | ldVxI (x : Nibble)
  deriving DecidableEq, Repr

end Sys2Proof
end

