-- ==== Sys2Proof/WellFormed.lean ====
section
/-! DEFINITION. Which instructions and which configurations are well formed. -/

namespace Sys2Proof

/-- Every instruction term is well formed: a field has exactly the width of its place in the word (R81), and within a
legal encoding every value of every operand field is legal at decode (R88). The forms of R147 are well formed too: they
decode, and are refused at execute. -/
def Instr.wf : Instr → Bool
  | .cls | .ret | .jp _ | .call _ | .se _ _ | .ldImm _ _ | .addImm _ _ | .shl _ _ | .shr _ _ | .ldI _ | .drw _ _ _
  | .sknp _ | .rnd _ _ | .ldVxDt _ | .ldDtVx _ | .ldF _ | .ldB _ | .ldVxI _ => true

/-- A stack of at least one entry (R7 "any value >= 1") and a program base above the 80 font bytes (R5 `FONT_BASE + FONT_LEN <= PROG_BASE`). -/
def Config.wf (c : Config) : Bool :=
  decide (1 ≤ c.stackDepth) && decide (80 ≤ c.progBase.toNat)

end Sys2Proof
end

