-- ==== Sys2Proof/Decode.lean ====
section
/-! DEFINITION. Decoding and encoding (30_encoding.md): the fields of a word (R81), the opcode map as a table of masks
and patterns (R84, R85), decoding of bytes with rejection by name, and the encoder (R92). The bit patterns are the
spec's import from general knowledge (R85, D1; assumption 20). -/

namespace Sys2Proof

/-! ### The fields of a word (R81, R102) -/

/-- `n0 = op[15:12]`. -/
def opN0 (op : Word) : Nibble := op.extractLsb' 12 4

/-- `x = n1 = op[11:8]`. -/
def opX (op : Word) : Nibble := op.extractLsb' 8 4

/-- `y = n2 = op[7:4]`. -/
def opY (op : Word) : Nibble := op.extractLsb' 4 4

/-- `n = n3 = op[3:0]`. -/
def opN (op : Word) : Nibble := op.extractLsb' 0 4

/-- `kk = op[7:0]`. -/
def opKk (op : Word) : Byte := op.extractLsb' 0 8

/-- `addr = op[11:0]`. -/
def opAddr (op : Word) : Addr := op.extractLsb' 0 12

/-! ### The opcode map -/

/-- A row of the opcode map: a word `op` matches it when `(op & mask) = pattern` (R84); `build` reads the operand
fields of the row's format (R82). -/
structure OpcodeRow where
  mask : Word
  pattern : Word
  build : Word → Instr

/-- `(op & mask) = match` (R84). -/
def OpcodeRow.matches (r : OpcodeRow) (op : Word) : Bool := op &&& r.mask == r.pattern

/-- The 18 rows of R85, in the spec's priority order. -/
def opcodeTable : List OpcodeRow :=
  [⟨0xFFFF, 0x00E0, fun _ => .cls⟩,
   ⟨0xFFFF, 0x00EE, fun _ => .ret⟩,
   ⟨0xF000, 0x1000, fun op => .jp (opAddr op)⟩,
   ⟨0xF000, 0x2000, fun op => .call (opAddr op)⟩,
   ⟨0xF000, 0x3000, fun op => .se (opX op) (opKk op)⟩,
   ⟨0xF000, 0x6000, fun op => .ldImm (opX op) (opKk op)⟩,
   ⟨0xF000, 0x7000, fun op => .addImm (opX op) (opKk op)⟩,
   ⟨0xF00F, 0x800E, fun op => .shl (opX op) (opY op)⟩,
   ⟨0xF00F, 0x8006, fun op => .shr (opX op) (opY op)⟩,
   ⟨0xF000, 0xA000, fun op => .ldI (opAddr op)⟩,
   ⟨0xF000, 0xD000, fun op => .drw (opX op) (opY op) (opN op)⟩,
   ⟨0xF0FF, 0xE0A1, fun op => .sknp (opX op)⟩,
   ⟨0xF000, 0xC000, fun op => .rnd (opX op) (opKk op)⟩,
   ⟨0xF0FF, 0xF007, fun op => .ldVxDt (opX op)⟩,
   ⟨0xF0FF, 0xF015, fun op => .ldDtVx (opX op)⟩,
   ⟨0xF0FF, 0xF029, fun op => .ldF (opX op)⟩,
   ⟨0xF0FF, 0xF033, fun op => .ldB (opX op)⟩,
   ⟨0xF0FF, 0xF065, fun op => .ldVxI (opX op)⟩]

/-- The instruction of the first row of a table that a word matches (R84). -/
def decodeWith (rows : List OpcodeRow) (op : Word) : Option Instr :=
  (rows.find? (·.matches op)).map (·.build op)

/-- `Decode(op)` (R103): total on all 65536 words; `none` is UnknownOpcode (R87). -/
def decode (op : Word) : Option Instr := decodeWith opcodeTable op

/-! ### Bytes -/

/-- Why bytes are no instruction. -/
inductive DecodeError where
  /-- Fewer than two bytes are left. -/
  | truncated
  /-- The word matches no row (R87). -/
  | unknownOpcode (op : Word)
  deriving DecidableEq, Repr

/-- The big-endian word of two bytes, the byte at the lower address first (R53). -/
def wordOfBytes (hi lo : Byte) : Word := hi ++ lo

/-- The two bytes of a word, as they lie in memory (R53). -/
def bytesOfWord (op : Word) : List Byte := [op.extractLsb' 8 8, op.extractLsb' 0 8]

/-- The instruction at the head of a byte sequence, and the rest; every instruction is 2 bytes long (R80). -/
def decodeBytes : List Byte → Except DecodeError (Instr × List Byte)
  | hi :: lo :: rest =>
    match decode (wordOfBytes hi lo) with
    | some i => .ok (i, rest)
    | none => .error (.unknownOpcode (wordOfBytes hi lo))
  | _ => .error .truncated

/-- What the decoder reads from an instruction whose bits are `w`, of which the opcode table gives `nbits`; the bits
above them are 0. The table's rows are one 16-bit word, bit 0 its least significant bit (R82). -/
def decodeTableWord (nbits w : Nat) : Option Instr :=
  match decodeBytes (bytesOfWord (BitVec.ofNat 16 (w % 2 ^ nbits))) with
  | .ok (i, _) => some i
  | .error _ => none

/-! ### The encoder (R92) -/

/-- Format NNN. -/
def encodeNnn (n0 : Nibble) (addr : Addr) : Word := n0 ++ addr

/-- Formats XKK and X. -/
def encodeXkk (n0 x : Nibble) (kk : Byte) : Word := n0 ++ x ++ kk

/-- Formats XY and XYN. -/
def encodeXyn (n0 x y n : Nibble) : Word := n0 ++ x ++ y ++ n

/-- The word of an instruction (R92, with the patterns of R85). -/
def encode : Instr → Word
  | .cls => 0x00E0
  | .ret => 0x00EE
  | .jp addr => encodeNnn 0x1 addr
  | .call addr => encodeNnn 0x2 addr
  | .se x kk => encodeXkk 0x3 x kk
  | .ldImm x kk => encodeXkk 0x6 x kk
  | .addImm x kk => encodeXkk 0x7 x kk
  | .shl x y => encodeXyn 0x8 x y 0xE
  | .shr x y => encodeXyn 0x8 x y 0x6
  | .ldI addr => encodeNnn 0xA addr
  | .drw x y n => encodeXyn 0xD x y n
  | .sknp x => encodeXkk 0xE x 0xA1
  | .rnd x kk => encodeXkk 0xC x kk
  | .ldVxDt x => encodeXkk 0xF x 0x07
  | .ldDtVx x => encodeXkk 0xF x 0x15
  | .ldF x => encodeXkk 0xF x 0x29
  | .ldB x => encodeXkk 0xF x 0x33
  | .ldVxI x => encodeXkk 0xF x 0x65

/-- The bytes of an instruction, as they lie in memory. -/
def encodeBytes (i : Instr) : List Byte := bytesOfWord (encode i)

end Sys2Proof
end

