-- ==== Sys2Proof/Machine/Frame.lean ====
section
/-! DEFINITION. The frame buffer (10_state.md R28): 32 rows of 64 pixels, row index first. -/

namespace Sys2Proof.Machine

/-- `FB[yy][xx]`, `FB_H` = 32 rows of `FB_W` = 64 columns (R8). -/
abbrev Frame := Vector (Vector Bool 64) 32

/-- Every pixel 0. -/
def Frame.blank : Frame := Vector.replicate 32 (Vector.replicate 64 false)

/-- `FB[yy][xx]`; `false` outside the buffer, which no instruction reads. -/
def Frame.pixel (f : Frame) (yy xx : Nat) : Bool :=
  if h : yy < 32 ∧ xx < 64 then (f[yy]'h.1)[xx]'h.2 else false

/-- The buffer with `FB[yy][xx] = b`; outside the buffer nothing is written. -/
def Frame.put (f : Frame) (yy xx : Nat) (b : Bool) : Frame :=
  if h : yy < 32 ∧ xx < 64 then f.set yy ((f[yy]'h.1).set xx b h.2) h.1 else f

end Sys2Proof.Machine
end

