-- ==== Sys2Proof/Machine/Params.lean ====
section
/-! DEFINITION. The fixed numbers of the hardware and the default configuration (00_scope.md R4 to R9, 20_memory.md
R58): the values State.reset is built from. -/

namespace Sys2Proof.Machine

open Sys2Proof

/-- `MEM_SIZE` (R4, D3; assumption 8). -/
def memSize : Nat := 4096

/-- `GLYPH_BYTES` (R6). -/
def glyphBytes : Nat := 5

/-- `T60`, one sixtieth of a second (R9). -/
def t60 : Seconds := Seconds.frac 1 60

/-- The default font (R58, D4; assumption 7): glyphs 0 to F, five rows each. -/
def defaultFont : Vector Byte 80 :=
  #v[0xF0, 0x90, 0x90, 0x90, 0xF0,  0x20, 0x60, 0x20, 0x20, 0x70,
     0xF0, 0x10, 0xF0, 0x80, 0xF0,  0xF0, 0x10, 0xF0, 0x10, 0xF0,
     0x90, 0x90, 0xF0, 0x10, 0x10,  0xF0, 0x80, 0xF0, 0x10, 0xF0,
     0xF0, 0x80, 0xF0, 0x90, 0xF0,  0xF0, 0x10, 0x20, 0x40, 0x40,
     0xF0, 0x90, 0xF0, 0x90, 0xF0,  0xF0, 0x90, 0xF0, 0x10, 0xF0,
     0xF0, 0x90, 0xF0, 0x90, 0x90,  0xE0, 0x90, 0xE0, 0x90, 0xE0,
     0xF0, 0x80, 0x80, 0x80, 0xF0,  0xE0, 0x90, 0x90, 0x90, 0xE0,
     0xF0, 0x80, 0xF0, 0x80, 0xF0,  0xF0, 0x80, 0xF0, 0x80, 0x80]

/-- The default configuration: PROG_BASE 0x200 (R5), STACK_DEPTH 16 (R7), the font of R58, `ShiftWide = zero` (R146),
the timer rule of R187. -/
def defaultConfig : Config :=
  { progBase := 0x200, stackDepth := 16, font := defaultFont, shiftWide := .zero, timerRule := .threshold }

/-- The contents of an address at construction (R42): the font at 0 to 79, 0 elsewhere. -/
def initByte (c : Config) (a : Nat) : Byte := if h : a < 80 then c.font[a] else 0

end Sys2Proof.Machine
end

