-- ==== Sys2Proof/Machine/Memory.lean ====
section
/-! DEFINITION. Memory (20_memory.md R50): the bytes that differ from the contents at construction, as a list of cells
in one canonical form (assumption 21). Bounds are the business of the access primitives in Ops.lean. -/

namespace Sys2Proof.Machine

open Sys2Proof

/-- Cells by strictly rising address; an address without a cell holds what construction put there. -/
abbrev Memory := List Host.Cell

/-- The byte at an address. -/
def Memory.get (c : Config) : Memory → Nat → Byte
  | [], a => initByte c a
  | (k, b) :: m, a => if a = k then b else Memory.get c m a

/-- Memory with the byte `b` at the address `a`; the cell is dropped where `b` is what construction put there. -/
def Memory.put (c : Config) : Memory → Nat → Byte → Memory
  | [], a, b => if b = initByte c a then [] else [(a, b)]
  | (k, w) :: m, a, b =>
    if a < k then (if b = initByte c a then (k, w) :: m else (a, b) :: (k, w) :: m)
    else if a = k then (if b = initByte c a then m else (a, b) :: m)
    else (k, w) :: Memory.put c m a b

/-- Memory with the bytes `bs` at consecutive addresses from `a`. -/
def Memory.putAll (c : Config) : Memory → Nat → List Byte → Memory
  | m, _, [] => m
  | m, a, b :: bs => Memory.putAll c (Memory.put c m a b) (a + 1) bs

/-- The canonical form: addresses strictly rising, each below MEM_SIZE, no cell equal to the contents at construction. -/
abbrev Memory.wf (c : Config) (m : Memory) : Prop :=
  m.Pairwise (fun p q => p.1 < q.1) ∧ ∀ p ∈ m, p.1 < memSize ∧ p.2 ≠ initByte c p.1

end Sys2Proof.Machine
end

