-- ==== Sys2Proof/Machine/State.lean ====
section
/-! DEFINITION. The state of the core (10_state.md section 1), its fault causes, the driver's calls, the refusals, and
the state after construction. -/

namespace Sys2Proof.Machine

open Sys2Proof

/-- The fault causes of R170. Each is TAKEN as R180 describes: `State.raise` latches it in `State.fault` and the step
answers a NEXT state, in which the core is halted; `Outcome.fault` is answered by no step (assumption 1). Safe: the
latched state is the spec's own, and what a real core does after a fatal condition is claimed by nothing. -/
inductive Fault where
  /-- Code 1, raised by decode when the word matches no row (R171). Safe. -/
  | unknownOpcode
  /-- Code 2, raised by CALL on a full stack (R172). Safe. -/
  | stackOverflow
  /-- Code 3, raised by RET on an empty stack (R173). Safe. -/
  | stackUnderflow
  /-- Code 4, raised by the fetch when PC + 1 is outside memory (R174, D8). Safe: the source is silent. -/
  | fetchOutOfBounds
  /-- Code 5, raised by DRW, LD B and LD Vx,[I] when I + k is outside memory (R175, D9). Safe: the source is silent. -/
  | memoryOutOfBounds
  /-- Code 6, raised by SKNP when V[x] > 15 (R176, D10). Safe: the source calls it undefined behaviour. -/
  | keypadIndexOutOfRange
  deriving DecidableEq, Repr

/-- Forms to which the spec gives no meaning (R186), distinct from the faults. -/
inductive Refusal where
  /-- Raised by exec's arm of an instruction that has no meaning yet (no arm of this model). Safe. -/
  | notModelled (mnemonic : String)
  /-- Raised by SHL, SHR and DRW with `x = 15` or `y = 15` (R147, D17). Safe: nothing is claimed of the form. -/
  | vfOperandOfFlagWriter
  /-- Raised by SHL and SHR with an amount of 8 or more, only under `ShiftWide.refuse` (R146, D16). Safe. -/
  | shiftAmountTooWide
  deriving DecidableEq, Repr

/-- The record `(cause, pc, op)` of R30: the faulting instruction's address and word (0 for a fetch fault). -/
structure FaultRecord where
  cause : Fault
  pc : Word
  op : Word
  deriving DecidableEq, Repr

/-- The calls the driver can make on a core between ticks (R211, and the load port of R210). Construction makes a core and is not one of them
(R200, assumption 23); observation changes nothing. -/
inductive DriverCall where
  /-- `Load(bytes)` (R201). -/
  | load (bytes : List Byte)
  /-- One write strobe of the load port (R210), the port-level form of Load's writes (assumption 27). -/
  | loadByte (a : Addr) (b : Byte)
  /-- Reset (R202). -/
  | reset
  /-- `Tick(dt, KEY, RND)` (R100). -/
  | tick (input : TickInput)
  /-- `TimerUpdate(dt)` on its own (R187). -/
  | timerUpdate (dt : Seconds)
  deriving DecidableEq, Repr

/-- The state of the core, with the configuration it was constructed with and the driver's pending calls. -/
structure State where
  /-- The configuration given at construction (R4 to R11, R211); no step changes it. -/
  cfg : Config
  /-- `V[0..15]` (R20); `V[15]` is VF (R21). -/
  v : Vector Byte 16
  /-- `I` (R22). -/
  i : Addr
  /-- `PC` (R23). -/
  pc : Word
  /-- `SP`, the number of occupied slots (R24). -/
  sp : Nat
  /-- `STACK`, slot 0 first (R25). -/
  stack : List Word
  /-- `DT` (R26). -/
  dt : Byte
  /-- `TACC` (R27). -/
  tacc : Seconds
  /-- `TLAST` of C3's alternative; 0 unless `TIMER_RULE` is `sinceLast` (assumption 11). -/
  tlast : Seconds
  /-- `FB` (R28). -/
  fb : Frame
  /-- `DIRTY` (R29). -/
  dirty : Bool
  /-- `FAULT` (R30). -/
  fault : Option FaultRecord
  /-- `MEM` (R50). -/
  mem : Memory
  /-- The model's own: the driver's pending calls, oldest first; none pending means a tick on free inputs
  (assumption 2). -/
  calls : List DriverCall
  /-- The model's own: how many driver calls were performed, the argument of the free values (assumption 3). -/
  draws : Nat
  deriving DecidableEq, Repr

/-- Construction (R200): the state right after it, under a configuration, with no driver call pending. -/
def State.construct (c : Config) : State :=
  { cfg := c
    v := Vector.replicate 16 0
    i := 0
    pc := c.progBase.setWidth 16
    sp := 0
    stack := List.replicate c.stackDepth 0
    dt := 0
    tacc := Seconds.zero
    tlast := Seconds.zero
    fb := Frame.blank
    dirty := false
    fault := none
    mem := []
    calls := []
    draws := 0 }

/-- The machine right after reset in the sense of power-on (R40 to R42, R200), at the default configuration. The reset
OPERATION of R202, which writes only PC and SP, is `State.resetPc`. -/
def State.reset : State := State.construct defaultConfig

/-- The outcome of an instruction or a step. -/
abbrev Result := Host.Outcome State Fault Refusal

end Sys2Proof.Machine
end

