-- ==== Sys2Proof/Machine/Ops.lean ====
section
/-! DEFINITION. The named operations over registers, memory, the stack and the program counter, and the one operation
that takes a fault. Every meaning is written over them. There is no return from a fault (R181). -/

namespace Sys2Proof.Machine

open Sys2Proof

/-! ### Registers -/

/-- `V[x]` (R20): every index a field can form is valid. -/
def State.reg (s : State) (x : Nibble) : Byte := s.v[x.toNat]'x.isLt

/-- `V[x] <- b`. -/
def State.setReg (s : State) (x : Nibble) (b : Byte) : State := { s with v := s.v.set x.toNat b x.isLt }

/-- The register file with `bs` in `V[k]`, `V[k+1]`, … -/
def loadRegs : Nat → List Byte → Vector Byte 16 → Vector Byte 16
  | _, [], v => v
  | k, b :: bs, v => loadRegs (k + 1) bs (v.setIfInBounds k b)

/-- `V[j] <- bs[j]` for every `j` below the length of `bs` (R153). -/
def State.setRegs (s : State) (bs : List Byte) : State := { s with v := loadRegs 0 bs s.v }

/-- `I <- a` (R22). -/
def State.setIndex (s : State) (a : Addr) : State := { s with i := a }

/-- `DT <- b` (R26). -/
def State.setDelay (s : State) (b : Byte) : State := { s with dt := b }

/-! ### Memory -/

/-- The byte `MEM[a]`, no bounds check. -/
def State.peek (s : State) (a : Nat) : Byte := s.mem.get s.cfg a

/-- `MEM[a] <- b`, no bounds check. -/
def State.poke (s : State) (a : Nat) (b : Byte) : State := { s with mem := s.mem.put s.cfg a b }

/-- `MEM[a], MEM[a+1], … <- bs`, no bounds check. -/
def State.pokes (s : State) (a : Nat) (bs : List Byte) : State := { s with mem := s.mem.putAll s.cfg a bs }

/-- `MemRead(a, 1)` (R51): `none` is MemoryOutOfBounds; the address is never reduced. -/
def State.memRead (s : State) (a : Nat) : Option Byte := if a < memSize then some (s.peek a) else none

/-- `MemWrite(a, 1, b)` (R52): `none` is MemoryOutOfBounds, and nothing is written. -/
def State.memWrite (s : State) (a : Nat) (b : Byte) : Option State := if a < memSize then some (s.poke a b) else none

/-- Whether all of the `len` addresses from `a` exist; an instruction makes this check before any access (R52). -/
abbrev inMemory (a len : Nat) : Prop := a + len ≤ memSize

/-- The `len` bytes from `a` (R154), or `none` (MemoryOutOfBounds) when one of them does not exist. -/
def State.readBlock (s : State) (a len : Nat) : Option (List Byte) :=
  if inMemory a len then some ((List.range len).map fun k => s.peek (a + k)) else none

/-- `bs` stored from `a`, or `none` (MemoryOutOfBounds, nothing written) when one of the addresses does not exist. -/
def State.writeBlock (s : State) (a : Nat) (bs : List Byte) : Option State :=
  if inMemory a bs.length then some (s.pokes a bs) else none

/-- `MemFetch(PC)` (R53, R101): big-endian, at any parity; `none` is FetchOutOfBounds. -/
def State.fetch (s : State) : Option Word :=
  if s.pc.toNat + 1 < memSize then some (wordOfBytes (s.peek s.pc.toNat) (s.peek (s.pc.toNat + 1))) else none

/-! ### The call stack (R24, R25, C1) -/

/-- `STACK[SP] <- a; SP <- SP + 1`. -/
def State.push (s : State) (a : Word) : State := { s with stack := s.stack.set s.sp a, sp := s.sp + 1 }

/-- The slot a pop reads, `STACK[SP - 1]`. -/
def State.top (s : State) : Word := s.stack.getD (s.sp - 1) 0

/-- `SP <- SP - 1; STACK[SP] <- 0`: the vacated slot is cleared. -/
def State.drop (s : State) : State := { s with stack := s.stack.set (s.sp - 1) 0, sp := s.sp - 1 }

/-! ### The frame buffer -/

/-- `FB <- f; DIRTY <- 1` (R29). -/
def State.touchFrame (s : State) (f : Frame) : State := { s with fb := f, dirty := true }

/-! ### The program counter (R104) -/

/-- The three outcomes of a handler. -/
inductive Flow where
  | next
  | skip
  | jump (a : Word)
  deriving DecidableEq, Repr

/-- `NextPC(PC, outcome)`. -/
def nextPc (pc : Word) : Flow → Word
  | .next => pc + 2
  | .skip => pc + 4
  | .jump a => a

/-- `PC <- NextPC(PC, outcome)`. -/
def State.finish (s : State) (f : Flow) : State := { s with pc := nextPc s.pc f }

/-! ### Taking a fault -/

/-- Fault entry (R180): `FAULT <- (cause, PC, op)`. PC keeps the faulting instruction's address and nothing else
changes (R179); the core is halted from then on. -/
def State.raise (s : State) (cause : Fault) (op : Word) : State := { s with fault := some ⟨cause, s.pc, op⟩ }

/-- The code of a fault cause (R170, D11). -/
def Fault.code : Fault → BitVec 3
  | .unknownOpcode => 1
  | .stackOverflow => 2
  | .stackUnderflow => 3
  | .fetchOutOfBounds => 4
  | .memoryOutOfBounds => 5
  | .keypadIndexOutOfRange => 6

/-! ### The tick's inputs -/

/-- The inputs of the tick in progress (R108): those of the call at the head of the queue, or free ones when no call is
pending. No copy is kept after the tick. -/
def State.input (s : State) : TickInput :=
  match s.calls with
  | .tick inp :: _ => inp
  | _ => Config.freeInput s.draws

/-- `KEY[k]` for a key number below 16 (R191). -/
def State.key (s : State) (k : Nat) : Bool := s.input.key[k]?.getD false

end Sys2Proof.Machine
end

