-- ==== Sys2Proof/Machine/Operands.lean ====
section
/-! DEFINITION. Operand forms and the values instructions compute from them (43_register_ops.md R142 to R147,
44_index_and_memory.md R151, R152). -/

namespace Sys2Proof.Machine

open Sys2Proof

/-- Whether a flag-writing instruction names VF as an operand (R147). -/
def namesVf (x y : Nibble) : Bool := x == 15 || y == 15

/-- The shift amount of SHL and SHR: 1 when the registers are the same one, else the value of `V[y]` (R142). -/
def State.shiftAmount (s : State) (x y : Nibble) : Nat := if x = y then 1 else (s.reg y).toNat

/-- `ShiftWide` (R146) for a shift by `k`, 8 or more; `shift` is the instruction's shift by an amount, and `none` means
`refuse(ShiftAmountTooWide)`. -/
def wideShift (setting : ShiftWide) (shift : Nat → Byte) (k : Nat) : Option Byte :=
  match setting with
  | .zero => some 0
  | .mod8 => some (shift (k % 8))
  | .refuse => none

/-- The result of a shift by any amount: exact for 0 to 7 (R142, R143), `ShiftWide` from 8 on. -/
def shiftResult (setting : ShiftWide) (shift : Nat → Byte) (k : Nat) : Option Byte :=
  if k ≤ 7 then some (shift k) else wideShift setting shift k

/-- The hundreds, tens and units digits of a byte, in the order they are stored (R152). -/
def bcdDigits (b : Byte) : List Byte :=
  [BitVec.ofNat 8 (b.toNat / 100), BitVec.ofNat 8 (b.toNat / 10 % 10), BitVec.ofNat 8 (b.toNat % 10)]

/-- The address of the glyph of a digit, `5 × V[x]`, not masked (R151, D29); at most 1275, so it fits. -/
def glyphAddr (b : Byte) : Addr := BitVec.ofNat 12 (glyphBytes * b.toNat)

/-! ### The sprite (R121) -/

/-- One sprite bit `sbit` aimed at column `px`, row `py`: dropped out of bounds; else XORed into the pixel, and the flag
collects `old AND sbit`. -/
def drawBit (px py : Nat) (sbit : Bool) (d : Frame × Bool) : Frame × Bool :=
  if px < 64 ∧ py < 32 then
    (d.1.put py px (d.1.pixel py px ^^ sbit), d.2 || (d.1.pixel py px && sbit))
  else d

/-- One sprite row: bit `b` of it, the most significant first, goes to column `x0 + b`. -/
def drawRow (x0 py : Nat) (row : Byte) (d : Frame × Bool) : Frame × Bool :=
  (List.range 8).foldl (fun d b => drawBit (x0 + b) py (row.getLsbD (7 - b)) d) d

/-- The rows of a sprite, top row first. -/
def drawRows (x0 : Nat) : Nat → List Byte → Frame × Bool → Frame × Bool
  | _, [], d => d
  | py, row :: rows, d => drawRows x0 (py + 1) rows (drawRow x0 py row d)

/-- The sprite drawn at column `x0`, row `y0`: the new buffer, and whether a collision happened. -/
def drawSprite (x0 y0 : Nat) (rows : List Byte) (f : Frame) : Frame × Bool := drawRows x0 y0 rows (f, false)

end Sys2Proof.Machine
end

