-- ==== Sys2Proof/Machine/Flags.lean ====
section
/-! DEFINITION. The flag register VF and the three flags that exist: the bit SHL shifts out, the bit SHR shifts out, the
collision of DRW (10_state.md R21, C2). No carry and no borrow is ever reported. -/

namespace Sys2Proof.Machine

open Sys2Proof

/-- A flag as the byte VF holds: 0 or 1. -/
def flagByte (b : Bool) : Byte := if b then 1 else 0

/-- `V[15] <- flag`. -/
def State.setFlag (s : State) (b : Bool) : State := s.setReg 15 (flagByte b)

/-- The flag of SHL: the most significant bit before the shift, whatever the amount (R142). -/
def shlFlag (a : Byte) : Bool := a.getLsbD 7

/-- The flag of SHR: the least significant bit before the shift, whatever the amount (R143). -/
def shrFlag (a : Byte) : Bool := a.getLsbD 0

end Sys2Proof.Machine
end

