-- ==== Sys2Proof/Machine/Control.lean ====
section
/-! DEFINITION. Control transfer (42_control_transfer.md): RET, JP, CALL, SE, SKNP. -/

namespace Sys2Proof.Machine

open Sys2Proof

/-- RET (R130): StackUnderflow on an empty stack, before any change; else decrement, jump to the popped address, clear
the vacated slot. -/
def execRet (s : State) : Result :=
  if s.sp = 0 then .next (s.raise .stackUnderflow (encode .ret))
  else .next (s.drop.finish (.jump s.top))

/-- JP addr (R131): the target is not validated. -/
def execJp (addr : Addr) (s : State) : Result := .next (s.finish (.jump (addr.setWidth 16)))

/-- CALL addr (R132): StackOverflow on a full stack, before any change; else push PC + 2, then increment (C1), and jump.
A pointer above the depth, which no run reaches (R24), counts as full (assumption 15). -/
def execCall (addr : Addr) (s : State) : Result :=
  if s.cfg.stackDepth ≤ s.sp then .next (s.raise .stackOverflow (encode (.call addr)))
  else .next ((s.push (s.pc + 2)).finish (.jump (addr.setWidth 16)))

/-- SE Vx, kk (R133). -/
def execSe (x : Nibble) (kk : Byte) (s : State) : Result :=
  .next (s.finish (if s.reg x = kk then .skip else .next))

/-- SKNP Vx (R134): KeypadIndexOutOfRange above 15 (D10), never masked; else skip when the key is not pressed. -/
def execSknp (x : Nibble) (s : State) : Result :=
  if 15 < (s.reg x).toNat then .next (s.raise .keypadIndexOutOfRange (encode (.sknp x)))
  else .next (s.finish (if s.key (s.reg x).toNat then .next else .skip))

end Sys2Proof.Machine
end

