-- ==== Sys2Proof/Machine/Display.lean ====
section
/-! DEFINITION. Display instructions (41_display.md): CLS, DRW. -/

namespace Sys2Proof.Machine

open Sys2Proof

/-- CLS (R120): every pixel 0, DIRTY set, VF not written. -/
def execCls (s : State) : Result := .next ((s.touchFrame Frame.blank).finish .next)

/-- DRW Vx, Vy, n (R121): refused when it names VF (R147), before the bounds check (R178, D33); all `n` rows are checked
before anything is written (D9); VF is 0 or 1, DIRTY is set unconditionally. -/
def execDrw (x y n : Nibble) (s : State) : Result :=
  if namesVf x y then .refused .vfOperandOfFlagWriter
  else
    match s.readBlock s.i.toNat n.toNat with
    | none => .next (s.raise .memoryOutOfBounds (encode (.drw x y n)))
    | some rows =>
      let d := drawSprite (s.reg x).toNat (s.reg y).toNat rows s.fb
      .next (((s.touchFrame d.1).setFlag d.2).finish .next)

end Sys2Proof.Machine
end

