-- ==== Sys2Proof/Machine/IndexMem.lean ====
section
/-! DEFINITION. Index register and memory instructions (44_index_and_memory.md): LD I; LD F; LD B; LD Vx,[I]. None of
them changes I as a side effect of an access (R154). -/

namespace Sys2Proof.Machine

open Sys2Proof

/-- LD I, addr (R150). -/
def execLdI (addr : Addr) (s : State) : Result := .next ((s.setIndex addr).finish .next)

/-- LD F, Vx (R151). -/
def execLdF (x : Nibble) (s : State) : Result := .next ((s.setIndex (glyphAddr (s.reg x))).finish .next)

/-- LD B, Vx (R152): the three digits at I, I+1, I+2; MemoryOutOfBounds before the first write. -/
def execLdB (x : Nibble) (s : State) : Result :=
  match s.writeBlock s.i.toNat (bcdDigits (s.reg x)) with
  | none => .next (s.raise .memoryOutOfBounds (encode (.ldB x)))
  | some t => .next (t.finish .next)

/-- LD Vx, [I] (R153): V[0] to V[x] from I to I+x; MemoryOutOfBounds before any register is written. -/
def execLdVxI (x : Nibble) (s : State) : Result :=
  match s.readBlock s.i.toNat (x.toNat + 1) with
  | none => .next (s.raise .memoryOutOfBounds (encode (.ldVxI x)))
  | some bs => .next ((s.setRegs bs).finish .next)

end Sys2Proof.Machine
end

