-- ==== Sys2Proof/Machine/RegOps.lean ====
section
/-! DEFINITION. Register operations (43_register_ops.md): LD Vx,kk; ADD Vx,kk; SHL; SHR; RND. -/

namespace Sys2Proof.Machine

open Sys2Proof

/-- LD Vx, kk (R140). -/
def execLdImm (x : Nibble) (kk : Byte) (s : State) : Result := .next ((s.setReg x kk).finish .next)

/-- ADD Vx, kk (R141): modulo 256, no flag. -/
def execAddImm (x : Nibble) (kk : Byte) (s : State) : Result := .next ((s.setReg x (s.reg x + kk)).finish .next)

/-- What SHL and SHR share: refused when they name VF (R147) or when `ShiftWide` refuses the amount (R146); else the
result goes to `V[x]` and the flag to VF. -/
def shiftInto (x y : Nibble) (shift : Nat → Byte) (flag : Bool) (s : State) : Result :=
  if namesVf x y then .refused .vfOperandOfFlagWriter
  else
    match shiftResult s.cfg.shiftWide shift (s.shiftAmount x y) with
    | none => .refused .shiftAmountTooWide
    | some r => .next (((s.setReg x r).setFlag flag).finish .next)

/-- SHL Vx, Vy (R142). -/
def execShl (x y : Nibble) (s : State) : Result :=
  shiftInto x y (fun k => s.reg x <<< k) (shlFlag (s.reg x)) s

/-- SHR Vx, Vy (R143), logical. -/
def execShr (x y : Nibble) (s : State) : Result :=
  shiftInto x y (fun k => s.reg x >>> k) (shrFlag (s.reg x)) s

/-- RND Vx, kk (R144): this tick's random byte AND `kk`. -/
def execRnd (x : Nibble) (kk : Byte) (s : State) : Result := .next ((s.setReg x (s.input.rnd &&& kk)).finish .next)

end Sys2Proof.Machine
end

