-- ==== Sys2Proof/Machine/TimerAccess.lean ====
section
/-! DEFINITION. Delay-timer access (45_timer_access.md): LD Vx,DT; LD DT,Vx. -/

namespace Sys2Proof.Machine

open Sys2Proof

/-- LD Vx, DT (R160): the value after this tick's timer update, which the tick made before (R100). -/
def execLdVxDt (x : Nibble) (s : State) : Result := .next ((s.setReg x s.dt).finish .next)

/-- LD DT, Vx (R161): TACC is not touched. -/
def execLdDtVx (x : Nibble) (s : State) : Result := .next ((s.setDelay (s.reg x)).finish .next)

end Sys2Proof.Machine
end

