-- ==== Sys2Proof/Machine/Dispatch.lean ====
section
/-! DEFINITION. `Execute` of R100 step 6 with the PC update of step 7: the meaning of each instruction, in the order of
the opcode table. PC still holds the instruction's own address in the state given (R23). -/

namespace Sys2Proof.Machine

open Sys2Proof

def exec (i : Instr) (s : State) : Host.Outcome State Fault Refusal :=
  match i with
  -- 41_display.md, 42_control_transfer.md
  | .cls => Sys2Proof.Machine.execCls s
  | .ret => Sys2Proof.Machine.execRet s
  | .jp addr => Sys2Proof.Machine.execJp addr s
  | .call addr => Sys2Proof.Machine.execCall addr s
  | .se x kk => Sys2Proof.Machine.execSe x kk s
  -- 43_register_ops.md
  | .ldImm x kk => Sys2Proof.Machine.execLdImm x kk s
  | .addImm x kk => Sys2Proof.Machine.execAddImm x kk s
  | .shl x y => Sys2Proof.Machine.execShl x y s
  | .shr x y => Sys2Proof.Machine.execShr x y s
  -- 44_index_and_memory.md, 41_display.md, 42_control_transfer.md, 43_register_ops.md, 45_timer_access.md
  | .ldI addr => Sys2Proof.Machine.execLdI addr s
  | .drw x y n => Sys2Proof.Machine.execDrw x y n s
  | .sknp x => Sys2Proof.Machine.execSknp x s
  | .rnd x kk => Sys2Proof.Machine.execRnd x kk s
  | .ldVxDt x => Sys2Proof.Machine.execLdVxDt x s
  | .ldDtVx x => Sys2Proof.Machine.execLdDtVx x s
  | .ldF x => Sys2Proof.Machine.execLdF x s
  | .ldB x => Sys2Proof.Machine.execLdB x s
  | .ldVxI x => Sys2Proof.Machine.execLdVxI x s

end Sys2Proof.Machine
end

