-- ==== Sys2Proof/Machine/Driver.lean ====
section
/-! DEFINITION. What the driver can do to a core besides ticking it (70_reset_and_hazards.md R211), the timer update
(60_exceptions.md R187), the parts of a tick around its instruction, and what a tick returns. -/

namespace Sys2Proof.Machine

open Sys2Proof

/-! ### The operations of R211 -/

/-- `Load(bytes)` (R201): from PROG_BASE upward, bytes beyond memory dropped, nothing else changed. -/
def State.load (s : State) (bytes : List Byte) : State :=
  s.pokes s.cfg.progBase.toNat (bytes.take (memSize - s.cfg.progBase.toNat))

/-- One write strobe of the load port (R210): the byte at its address, as one of Load's writes. Load writes from PROG_BASE
upward only (R59, R66, R67), so an address below it is not written (assumption 27). -/
def State.loadByte (s : State) (a : Addr) (b : Byte) : State :=
  { s with mem := if s.cfg.progBase.toNat ≤ a.toNat then s.mem.put s.cfg a.toNat b else s.mem }

/-- The reset operation (R202, R43): PC and SP, nothing else; FAULT stays. -/
def State.resetPc (s : State) : State := { s with pc := s.cfg.progBase.setWidth 16, sp := 0 }

/-- Whether a timer update that has brought TACC to `tacc` lets DT fall: R187 by default (assumption 11). -/
def State.timerFires (s : State) (tacc : Seconds) : Bool :=
  match s.cfg.timerRule with
  | .threshold => decide (t60.le tacc)
  | .sinceLast => decide ((s.tlast.add t60).le tacc)
  | .free => Config.freeFire s.draws

/-- `TimerUpdate(dt)` (R187): TACC grows; DT falls by 1 when the rule fires and DT is above 0. -/
def State.timerUpdate (s : State) (dt : Seconds) : State :=
  let tacc := s.tacc.add dt
  let fires := decide (s.dt ≠ 0) && s.timerFires tacc
  { s with
    tacc := tacc
    dt := if fires then s.dt - 1 else s.dt
    tlast := if fires && s.cfg.timerRule == .sinceLast then tacc else s.tlast }

/-! ### The parts of a tick (R100) -/

/-- Steps 2 and 3: the timer update with this tick's `dt`, then `DIRTY <- 0` (R107). -/
def State.beginTick (s : State) : State := { s.timerUpdate s.input.dt with dirty := false }

/-- The driver's call is over: it leaves the queue, and the next free inputs are fresh ones. -/
def State.endCall (s : State) : State := { s with calls := s.calls.tail, draws := s.draws + 1 }

/-- Whether a call of the driver is a tick. -/
def DriverCall.isTick : DriverCall → Bool
  | .tick _ => true
  | .load _ | .loadByte _ _ | .reset | .timerUpdate _ => false

/-- Whether the driver's next call is a tick: one is at the head of the queue, or none is pending. -/
def State.nextIsTick (s : State) : Bool :=
  match s.calls with
  | [] => true
  | c :: _ => c.isTick

/-- Whether the core is halted (R180). -/
def State.halted (s : State) : Bool := s.fault.isSome

/-! ### What the driver gets back -/

/-- What a tick returns (R100 steps 1 and 8, R109, R180). -/
inductive TickReturn where
  | ok (view : Frame) (dirty : Bool)
  | halted (record : FaultRecord)
  deriving DecidableEq, Repr

/-- The return value of the tick that has ended in this state: a view of the frame buffer and DIRTY, or the fault. -/
def State.tickReturn (s : State) : TickReturn :=
  match s.fault with
  | none => .ok s.fb s.dirty
  | some r => .halted r

/-- What the driver can observe between calls (R211). -/
structure Observation where
  fb : Frame
  dirty : Bool
  tacc : Seconds
  fault : Option FaultRecord
  deriving DecidableEq, Repr

/-- Observation (R211): it changes nothing. -/
def State.observe (s : State) : Observation := ⟨s.fb, s.dirty, s.tacc, s.fault⟩

end Sys2Proof.Machine
end

