-- ==== Sys2Proof/Machine/Tick.lean ====
section
/-! DEFINITION. The tick (40_tick_and_dispatch.md R100) and the other calls of the driver. -/

namespace Sys2Proof.Machine

open Sys2Proof

/-- The driver's call ends after an instruction's outcome. -/
def endOutcome : Result → Result
  | .next t => .next t.endCall
  | .fault f => .fault f
  | .refused r => .refused r

/-- Steps 4 to 7 of R100 on a core that has made steps 2 and 3: fetch, decode, execute, in this order of faults (R178).
A fetch fault records the word 0 (R30). -/
def fetchAndRun (s : State) : Result :=
  match s.fetch with
  | none => .next (s.raise .fetchOutOfBounds 0)
  | some op =>
    match decode op with
    | none => .next (s.raise .unknownOpcode op)
    | some i => exec i s

/-- One tick: on a halted core nothing happens (R106). -/
def tick (s : State) : Result :=
  if s.halted then .next s.endCall else endOutcome (fetchAndRun s.beginTick)

/-- The driver's next call: the head of the queue, or a tick on free inputs when none is pending (assumption 2). -/
def nextCall (s : State) : Result :=
  match s.calls with
  | .load bytes :: _ => .next (s.load bytes).endCall
  | .loadByte a b :: _ => .next (s.loadByte a b).endCall
  | .reset :: _ => .next s.resetPc.endCall
  | .timerUpdate dt :: _ => .next (s.timerUpdate dt).endCall
  | .tick _ :: _ => tick s
  | [] => tick s

/-- Where an instruction's bytes must lie to be fetched next, put there: for a core that can fetch at its PC, the word's
two bytes; and whatever would keep the next call from being a tick that fetches (a latched fault, other pending calls)
taken out of the way (assumption 18). -/
def placeWord (s : State) (op : Word) : State :=
  let t := { s with fault := none, calls := s.calls.dropWhile fun c => !c.isTick }
  if s.pc.toNat + 1 < memSize then t.pokes s.pc.toNat (bytesOfWord op) else t

end Sys2Proof.Machine
end

