-- ==== Sys2Proof/Machine/Step.lean ====
section
/-! DEFINITION. The step function. -/

namespace Sys2Proof.Machine

open Sys2Proof

/-- One step: one call of the driver, which is a tick (R100) unless another call is pending (R211). -/
def step (s : State) : Host.Outcome State Fault Refusal := nextCall s

/-- `s` with the instruction whose bits are `w` (the opcode table gives `nbits` of them, the rest are 0) where the next
step fetches it. -/
def State.withFetchWord (s : State) (nbits w : Nat) : State := placeWord s (BitVec.ofNat 16 (w % 2 ^ nbits))

end Sys2Proof.Machine
end

