-- ==== Sys2Proof/Machine/Ports.lean ====
section
/-! DEFINITION. The port-level reading of R210 (non-normative in the spec, D26): the strobes of the input ports and what
each makes the core do, and the output ports as a view of the state (assumption 26). -/

namespace Sys2Proof.Machine

open Sys2Proof

/-! ### Inputs -/

/-- A tick's inputs from the ports: `dt` in units of `1 / F_REF` second, bit `k` of `key` for `KEY[k]`. -/
def TickInput.ofPorts (fRef dtUnits : Nat) (key : BitVec 16) (rnd : Byte) : TickInput :=
  { dt := Seconds.frac dtUnits fRef
    key := Vector.ofFn fun k => key.getLsbD k.val
    rnd := rnd }

/-- The strobes, one at a time (R211), each with the data ports it reads. Since a `tick` strobe performs the whole tick
atomically, no write of the `load` port falls inside one. -/
inductive Strobe where
  | tick (dtUnits : Nat) (key : BitVec 16) (rnd : Byte)
  | resetPc
  | load (address : Addr) (byte : Byte)
  | por
  deriving DecidableEq, Repr

/-- The driver's call that a strobe makes; `por` makes none, it is construction. -/
def Strobe.call (fRef : Nat) : Strobe → Option DriverCall
  | .tick dtUnits key rnd => some (.tick (TickInput.ofPorts fRef dtUnits key rnd))
  | .resetPc => some .reset
  | .load address byte => some (.loadByte address byte)
  | .por => none

/-- What a strobe makes the core do: its call, ahead of those pending; `por` constructs the core anew under the
configuration it has. -/
def State.onStrobe (s : State) (fRef : Nat) (strobe : Strobe) : Result :=
  match strobe.call fRef with
  | some c => step { s with calls := c :: s.calls }
  | none => .next (State.construct s.cfg)

/-! ### Outputs -/

/-- The output ports. -/
structure Ports where
  fb : BitVec 2048
  dirty : Bool
  faultValid : Bool
  faultCause : BitVec 3
  faultPc : Word
  faultOp : Word
  tacc : Seconds
  deriving DecidableEq, Repr

/-- The output ports of a state: `fb[64*yy + xx] = FB[yy][xx]`; the fault ports read 0 while no fault is latched. -/
def State.ports (s : State) : Ports :=
  { fb := BitVec.ofFnLE fun k : Fin 2048 => s.fb.pixel (k.val / 64) (k.val % 64)
    dirty := s.dirty
    faultValid := s.fault.isSome
    faultCause := (s.fault.map fun r => r.cause.code).getD 0
    faultPc := (s.fault.map fun r => r.pc).getD 0
    faultOp := (s.fault.map fun r => r.op).getD 0
    tacc := s.tacc }

end Sys2Proof.Machine
end

