-- ==== Sys2Proof/Safety.lean ====
section
/-! DEFINITION. The terms claims are stated in: what of the state two states share, the invariant every step keeps
(10_state.md R46), the launch premises (R214) and the resting point (R204). -/

namespace Sys2Proof.Machine

open Sys2Proof

/-! ### Frames -/

/-- The parts a state is made of, but the program counter. -/
inductive Part where
  | regs
  | index
  | stack
  | delay
  | elapsed
  | frame
  | dirty
  | fault
  | memory
  /-- The configuration, the driver's pending calls and the count of calls performed. -/
  | outside
  deriving DecidableEq, Repr

/-- The two states agree on a part; memory is compared byte by byte, as it reads. -/
def Part.same (s t : State) : Part → Prop
  | .regs => ∀ r, t.reg r = s.reg r
  | .index => t.i = s.i
  | .stack => t.sp = s.sp ∧ t.stack = s.stack
  | .delay => t.dt = s.dt
  | .elapsed => t.tacc = s.tacc ∧ t.tlast = s.tlast
  | .frame => ∀ yy xx, t.fb.pixel yy xx = s.fb.pixel yy xx
  | .dirty => t.dirty = s.dirty
  | .fault => t.fault = s.fault
  | .memory => ∀ a, t.peek a = s.peek a
  | .outside => t.cfg = s.cfg ∧ t.calls = s.calls ∧ t.draws = s.draws

/-- Every part but those listed is unchanged from `s` to `t`. -/
def UnchangedBut (parts : List Part) (s t : State) : Prop := ∀ p, p ∉ parts → Part.same s t p

/-- From `s` to `t` exactly the fault `cause`, of the instruction word `op`, was taken: FAULT holds the record with the
PC of `s`, PC is kept, and every other part is unchanged (R179, R180). -/
def TookFault (cause : Fault) (op : Word) (s t : State) : Prop :=
  t.fault = some ⟨cause, s.pc, op⟩ ∧ t.pc = s.pc ∧ UnchangedBut [.fault] s t

/-- From `s` to `t` a tick took the fault of the record `r` (R179, R180): the record names the PC of `s` and the word
fetched there, 0 when the fetch failed; PC is kept; what changed is only what precedes the fetch, the timer update and
the DIRTY clear, and the driver's call is over. -/
def TickFaulted (r : FaultRecord) (s t : State) : Prop :=
  t.fault = some r ∧ r.pc = s.pc ∧ r.op = s.fetch.getD 0 ∧ t.pc = s.pc ∧
    UnchangedBut [.delay, .elapsed, .dirty, .fault, .outside] s t ∧
    t.dt = (s.timerUpdate s.input.dt).dt ∧ t.tacc = s.tacc.add s.input.dt ∧ t.dirty = false ∧ t.cfg = s.cfg

/-- The sprite bit that DRW with `n` rows, first column `x0`, first row `y0`, aims at row `yy`, column `xx` (R121):
bit `7 - b` of the byte at `I + r`, for `xx = x0 + b` and `yy = y0 + r`. -/
def State.spriteBit (s : State) (x0 y0 n yy xx : Nat) : Bool :=
  decide (x0 ≤ xx ∧ xx < x0 + 8 ∧ y0 ≤ yy ∧ yy < y0 + n) &&
    (s.peek (s.i.toNat + (yy - y0))).getLsbD (7 - (xx - x0))

/-- The registers an instruction may write: its destination, and VF for the three flag writers (R21). -/
def mayWrite : Instr → Nibble → Prop
  | .ldImm x _, r | .addImm x _, r | .rnd x _, r | .ldVxDt x, r => r = x
  | .shl x _, r | .shr x _, r => r = x ∨ r = 15
  | .drw _ _ _, r => r = 15
  | .ldVxI x, r => r.toNat ≤ x.toNat
  | .cls, _ | .ret, _ | .jp _, _ | .call _, _ | .se _ _, _ | .ldI _, _ | .sknp _, _ | .ldDtVx _, _ | .ldF _, _
  | .ldB _, _ => False

/-- The next step is a tick of a running core that fetches, decodes and executes `i`. -/
def State.Executes (s : State) (i : Instr) : Prop :=
  s.nextIsTick = true ∧ s.fault = none ∧ ∃ op, s.fetch = some op ∧ decode op = some i

/-! ### Invariants -/

/-- What holds after construction and is kept by every step (R46, R11, R24, R25, with the canonical form of memory). -/
structure State.Inv (s : State) : Prop where
  /-- The configuration is well formed (R5, R7). -/
  cfgWf : s.cfg.wf = true
  /-- `0 <= SP <= STACK_DEPTH` (R24). -/
  spLe : s.sp ≤ s.cfg.stackDepth
  /-- There are `STACK_DEPTH` slots (R25). -/
  slots : s.stack.length = s.cfg.stackDepth
  /-- No slot is above 0x1000 (R11, R132). -/
  slotLe : ∀ a ∈ s.stack, a.toNat ≤ 0x1000
  /-- `PC <= 0x1002` (R23). -/
  pcLe : s.pc.toNat ≤ 0x1002
  /-- Memory keeps its canonical form. -/
  memWf : Memory.wf s.cfg s.mem
  /-- The mark of the last decrement is not in the future. -/
  markLe : s.tlast.le s.tacc

/-- The record in FAULT is one that its cause can leave (R170 to R176): a fetch fault has the word 0 and an address from
which no fetch succeeds; an unknown opcode has a word that does not decode; any other cause has the word of an
instruction that raises it. -/
def FaultRecord.genuine (r : FaultRecord) : Prop :=
  match r.cause with
  | .fetchOutOfBounds => r.op = 0 ∧ memSize ≤ r.pc.toNat + 1
  | .unknownOpcode => decode r.op = none
  | .stackUnderflow => r.op = encode .ret
  | .stackOverflow => ∃ addr, r.op = encode (.call addr)
  | .keypadIndexOutOfRange => ∃ x, r.op = encode (.sknp x)
  | .memoryOutOfBounds => ∃ x y n, r.op = encode (.drw x y n) ∨ r.op = encode (.ldB x) ∨ r.op = encode (.ldVxI x)

/-- Every free slot holds 0 (R25). -/
def State.VacatedClear (s : State) : Prop := ∀ j, s.sp ≤ j → s.stack.getD j 0 = 0

/-- The two states differ at most in the contents of free stack slots, which no instruction reads (R25). -/
def SameButFreeSlots (s t : State) : Prop :=
  { s with stack := [] } = { t with stack := [] } ∧ s.stack.length = t.stack.length ∧
    ∀ j, j < s.sp → s.stack.getD j 0 = t.stack.getD j 0

/-! ### Launch and rest -/

/-- The launch premises of R214 for a program image: no fault, PC at PROG_BASE, an empty stack, the image in memory, the
invariant of R46. A state records no refusal, since a refused step answers no state. -/
structure State.Launched (s : State) (image : List Byte) : Prop where
  noFault : s.fault = none
  pcBase : s.pc.toNat = s.cfg.progBase.toNat
  emptyStack : s.sp = 0
  loaded : ∀ j, (h : j < image.length) → s.peek (s.cfg.progBase.toNat + j) = image[j]
  inv : s.Inv

/-- The launch premise of R214 for a program that uses glyphs: `MEM[0..79] = FONT`. -/
def State.FontIntact (s : State) : Prop := ∀ a, (h : a < 80) → s.peek a = s.cfg.font[a]

/-- The launch premises of R214 for a program that uses glyphs. -/
structure State.LaunchedWithFont (s : State) (image : List Byte) : Prop extends State.Launched s image where
  glyphs : s.FontIntact

/-- The register values that R214 lets a claim state directly after construction: `V`, `I`, `DT`, `TACC`, `FB` all
zero. -/
structure State.AllZero (s : State) : Prop where
  regs : ∀ r, s.reg r = 0
  index : s.i = 0
  delay : s.dt = 0
  elapsed : s.tacc = Seconds.zero
  frame : ∀ yy xx, s.fb.pixel yy xx = false

/-- The resting point (R204): a running core whose PC holds the address of the word `0x1000 | PC`, a JP to itself. A
halted core is never at rest (R106). -/
def State.Resting (s : State) : Prop :=
  s.fault = none ∧ s.pc.toNat < memSize ∧ s.fetch = some (0x1000 ||| s.pc)

/-- What a result leaves when it is a next state. -/
def nextState : Result → Option State
  | .next t => some t
  | _ => none

end Sys2Proof.Machine
end

