-- ==== Sys2Proof/Certificates/Slice0/Obligations.lean ====
section
/-! DEFINITION. The statements for the provers. Each docstring names the rules of spec/ it formalises, or says what it
rests on. -/

open Sys2Proof Sys2Proof.Machine

/-! ### Encoding -/

/-- A few words of 95_test_vectors.md 2.1, each the spec's own reading of it. -/
def Obligations.SpecWordsDecodeAsListed : Prop :=
  decode 0x00E0 = some .cls ∧ decode 0x3A7F = some (.se 0xA 0x7F) ∧ decode 0x812E = some (.shl 1 2) ∧
  decode 0x8126 = some (.shr 1 2) ∧ decode 0xA123 = some (.ldI 0x123) ∧ decode 0xD5A3 = some (.drw 5 0xA 3) ∧
  decode 0xF465 = some (.ldVxI 4) ∧ decode 0x0000 = none ∧ decode 0xE19E = none ∧ decode 0xF455 = none

/-- R92, its last sentence (the spec's own inference): encode followed by decode is the identity on instruction terms,
as a word and as bytes in memory order. -/
def Obligations.DecodeInvertsEncode : Prop :=
  ∀ i : Instr, i.wf = true →
    decode (encode i) = some i ∧ ∀ rest, decodeBytes (encodeBytes i ++ rest) = .ok (i, rest)

/-- R92, its last sentence (the spec's own inference): decode followed by encode is the identity on the legal words.
-/
def Obligations.EncodeInvertsDecode : Prop :=
  ∀ (w : Word) (i : Instr), decode w = some i → encode i = w

/-- R92, R85: the encoding function in the spec's own form, shifted fields ORed together. -/
def Obligations.EncodeFollowsFormats : Prop :=
  encode .cls = 0x00E0 ∧ encode .ret = 0x00EE ∧
  (∀ a : Addr, encode (.jp a) = 0x1000 ||| a.setWidth 16 ∧ encode (.call a) = 0x2000 ||| a.setWidth 16 ∧
    encode (.ldI a) = 0xA000 ||| a.setWidth 16) ∧
  (∀ (x : Nibble) (kk : Byte),
    encode (.se x kk) = 0x3000 ||| x.setWidth 16 <<< 8 ||| kk.setWidth 16 ∧
    encode (.ldImm x kk) = 0x6000 ||| x.setWidth 16 <<< 8 ||| kk.setWidth 16 ∧
    encode (.addImm x kk) = 0x7000 ||| x.setWidth 16 <<< 8 ||| kk.setWidth 16 ∧
    encode (.rnd x kk) = 0xC000 ||| x.setWidth 16 <<< 8 ||| kk.setWidth 16) ∧
  (∀ x y n : Nibble,
    encode (.shl x y) = 0x800E ||| x.setWidth 16 <<< 8 ||| y.setWidth 16 <<< 4 ∧
    encode (.shr x y) = 0x8006 ||| x.setWidth 16 <<< 8 ||| y.setWidth 16 <<< 4 ∧
    encode (.drw x y n) = 0xD000 ||| x.setWidth 16 <<< 8 ||| y.setWidth 16 <<< 4 ||| n.setWidth 16) ∧
  ∀ x : Nibble,
    encode (.sknp x) = 0xE0A1 ||| x.setWidth 16 <<< 8 ∧ encode (.ldVxDt x) = 0xF007 ||| x.setWidth 16 <<< 8 ∧
    encode (.ldDtVx x) = 0xF015 ||| x.setWidth 16 <<< 8 ∧ encode (.ldF x) = 0xF029 ||| x.setWidth 16 <<< 8 ∧
    encode (.ldB x) = 0xF033 ||| x.setWidth 16 <<< 8 ∧ encode (.ldVxI x) = 0xF065 ||| x.setWidth 16 <<< 8

/-- R86 (the spec's own inference from R85): no word matches two rows, so the order of the rows has no effect on
decoding. -/
def Obligations.OpcodeRowsDisjoint : Prop :=
  opcodeTable.length = 18 ∧ (∀ w : Word, (opcodeTable.filter (·.matches w)).length ≤ 1) ∧
  ∀ rows : List OpcodeRow, rows.Perm opcodeTable → ∀ w, decodeWith rows w = decode w

/-- R87, its table by class (the spec's own inference from R85): which words are legal; no other word decodes. -/
def Obligations.LegalWordsByClass : Prop :=
  ∀ w : Word, (decode w).isSome = true ↔
    (w = 0x00E0 ∨ w = 0x00EE ∨ opN0 w ∈ [0x1, 0x2, 0x3, 0x6, 0x7, 0xA, 0xC, 0xD] ∨
      (opN0 w = 0x8 ∧ opN w ∈ [0x6, 0xE]) ∨ (opN0 w = 0xE ∧ opKk w = 0xA1) ∨
      (opN0 w = 0xF ∧ opKk w ∈ [0x07, 0x15, 0x29, 0x33, 0x65]))

/-! ### The tick -/

/-- R100: on a running core whose next call is a tick, the step is the instruction at PC, executed on the state after
the timer update and the DIRTY clear. The model's own, not R100's: where the next call and its inputs come from
(assumptions 2, 3), and that the call then leaves the queue and the draw counter grows by one. -/
def Obligations.StepRunsTheDecodedInstruction : Prop :=
  ∀ (s : State) (op : Word) (i : Instr), s.nextIsTick = true → s.fault = none → s.fetch = some op →
    decode op = some i → i.wf = true →
    (∀ t, exec i { s.timerUpdate s.input.dt with dirty := false } = .next t →
      step s = .next { t with calls := t.calls.tail, draws := t.draws + 1 }) ∧
    (∀ r, exec i { s.timerUpdate s.input.dt with dirty := false } = .refused r → step s = .refused r)

/-- The model's own (assumption 18): what `withFetchWord` places is what is fetched next. -/
def Obligations.PlacedWordIsFetched : Prop :=
  ∀ (s : State) (w : Word), Memory.wf s.cfg s.mem → s.pc.toNat + 1 < memSize →
    (s.withFetchWord 16 w.toNat).fetch = some w ∧ (s.withFetchWord 16 w.toNat).nextIsTick = true ∧
    (s.withFetchWord 16 w.toNat).fault = none

/-- R106 (the spec's decision D22): a tick on a halted core changes nothing of the core and returns the latched fault;
such a state is never at rest. -/
def Obligations.HaltedTickChangesNothing : Prop :=
  ∀ (s : State) (r : FaultRecord), s.nextIsTick = true → s.fault = some r →
    ∃ t, step s = .next t ∧ t.tickReturn = .halted r ∧ t.pc = s.pc ∧ t.cfg = s.cfg ∧
      UnchangedBut [.outside] s t ∧ ¬ t.Resting

/-- R53: the fetch is big-endian at any parity of PC, and out of bounds it is FetchOutOfBounds that the tick raises.
-/
def Obligations.FetchIsBigEndian : Prop :=
  (∀ s : State, s.pc.toNat + 1 < memSize →
    ∃ w, s.fetch = some w ∧ w.toNat = (s.peek s.pc.toNat).toNat * 256 + (s.peek (s.pc.toNat + 1)).toNat) ∧
  (∀ s : State, memSize ≤ s.pc.toNat + 1 → s.nextIsTick = true → s.fault = none →
    ∃ t, step s = .next t ∧ (t.fault.map fun r => r.cause) = some .fetchOutOfBounds)

/-- R174 (the spec's decision D8): the fetch faults exactly from PC = 0xFFF on, whatever brought PC there, and PC
never wraps to 0. -/
def Obligations.FetchOutOfBoundsHalts : Prop :=
  ∀ s : State, s.nextIsTick = true → s.fault = none → 0xFFF ≤ s.pc.toNat →
    ∃ t, step s = .next t ∧ TickFaulted ⟨.fetchOutOfBounds, s.pc, 0⟩ s t

/-- R171: a word that matches no row halts the core, after the timer update and the DIRTY clear, and nothing else. -/
def Obligations.UnknownOpcodeHalts : Prop :=
  ∀ (s : State) (op : Word), s.nextIsTick = true → s.fault = none → s.fetch = some op → decode op = none →
    ∃ t, step s = .next t ∧ TickFaulted ⟨.unknownOpcode, s.pc, op⟩ s t

/-- R179 (the spec's decision D12): whatever fault a tick takes, it changed only TACC, DT, DIRTY and FAULT. With R178,
the order of the checks (the spec's own inference, "derived: from rule R100 and the instruction rules"): the cause is the
fetch's or the decoder's exactly when the fetch or the decoder fails. -/
def Obligations.FaultsArePrecise : Prop :=
  ∀ (s t : State) (r : FaultRecord), s.nextIsTick = true → s.fault = none → step s = .next t → t.fault = some r →
    TickFaulted r s t ∧ (r.cause = .fetchOutOfBounds ↔ s.fetch = none) ∧
    (r.cause = .unknownOpcode ↔ ∃ op, s.fetch = some op ∧ decode op = none)

/-- R181 (the spec's decisions D12, D22): nothing the driver can do to a core clears its fault, and ticks do nothing
to it; a new core has none. -/
def Obligations.FaultLatchIsSticky : Prop :=
  (∀ (s t : State) (r : FaultRecord), s.fault = some r → step s = .next t →
    t.fault = some r ∧ (s.nextIsTick = true → t = s.endCall)) ∧
  ∀ c, (State.construct c).fault = none

/-- R170: every record that a step leaves in FAULT is one its cause can leave. -/
def Obligations.FaultRecordsAreGenuine : Prop :=
  ∀ s t : State, (∀ r, s.fault = some r → r.genuine) → step s = .next t → ∀ r, t.fault = some r → r.genuine

/-- R29, its sentence "after a tick DIRTY = 1 exactly when" (the spec's own inference): after a tick of a running core
DIRTY is 1 exactly when the instruction was CLS or DRW and did not fault; the tick returns it with the frame buffer.
-/
def Obligations.DirtyTellsDisplayInstructions : Prop :=
  ∀ s t : State, s.nextIsTick = true → s.fault = none → step s = .next t →
    (t.dirty = true ↔ t.fault = none ∧ (s.Executes .cls ∨ ∃ x y n, s.Executes (.drw x y n))) ∧
    (t.fault = none → t.tickReturn = .ok t.fb t.dirty)

/-- R104: the outcome of every instruction that does not raise, with exact sums; one that raises leaves PC. -/
def Obligations.ProgramCounterOutcomes : Prop :=
  ∀ (i : Instr) (s t : State), s.pc.toNat ≤ 0xFFE → s.fault = none → exec i s = .next t →
    (t.fault ≠ none → t.pc = s.pc) ∧
    (t.fault = none →
      match i with
      | .ret => t.pc = s.stack.getD (s.sp - 1) 0
      | .jp addr | .call addr => t.pc.toNat = addr.toNat
      | .se x kk => t.pc.toNat = s.pc.toNat + (if s.reg x = kk then 4 else 2)
      | .sknp x => t.pc.toNat = s.pc.toNat + (if s.key (s.reg x).toNat = false then 4 else 2)
      | .cls | .ldImm _ _ | .addImm _ _ | .shl _ _ | .shr _ _ | .ldI _ | .drw _ _ _ | .rnd _ _ | .ldVxDt _ | .ldDtVx _
      | .ldF _ | .ldB _ | .ldVxI _ => t.pc.toNat = s.pc.toNat + 2)

/-- R186: the refusals, complete. They are outcomes of their own, not faults. -/
def Obligations.RefusalsAreExactlyThese : Prop :=
  ∀ (i : Instr) (s : State) (r : Refusal), exec i s = .refused r ↔
    (r = .vfOperandOfFlagWriter ∧ ∃ x y, (x = 15 ∨ y = 15) ∧ (i = .shl x y ∨ i = .shr x y ∨ ∃ n, i = .drw x y n)) ∨
    (r = .shiftAmountTooWide ∧ s.cfg.shiftWide = .refuse ∧ ∃ x y, x ≠ 15 ∧ y ≠ 15 ∧ x ≠ y ∧ 8 ≤ (s.reg y).toNat ∧
      (i = .shl x y ∨ i = .shr x y))

/-- R105, R213: every step answers a next state, unless it is a tick whose instruction is refused; a fault is a next
state too (assumption 1). -/
def Obligations.EveryStepCompletesOrIsRefused : Prop :=
  ∀ s : State, (∃ t, step s = .next t) ∨
    ∃ i r, s.Executes i ∧ exec i s.beginTick = .refused r ∧ step s = .refused r

/-! ### The timer -/

/-- R187 (the spec's reading, D14): the timer update under the spec's rule, as step 2 of a tick and as the driver's
own call. -/
def Obligations.TimerUpdateFollowsThreshold : Prop :=
  ∀ (s : State) (d : Seconds), s.cfg.timerRule = .threshold →
    ((s.timerUpdate d).tacc.val = s.tacc.val + d.val ∧
      (s.timerUpdate d).dt.toNat =
        (if 1 / 60 ≤ s.tacc.val + d.val ∧ 0 < s.dt.toNat then s.dt.toNat - 1 else s.dt.toNat) ∧
      (s.timerUpdate d).pc = s.pc ∧ UnchangedBut [.delay, .elapsed] s (s.timerUpdate d)) ∧
    (∀ rest, s.fault = none → s.calls = .timerUpdate d :: rest → step s = .next (s.timerUpdate d).endCall) ∧
    (∀ inp rest, s.calls = .tick inp :: rest → inp.dt = d →
      s.beginTick = { s.timerUpdate d with dirty := false })

/-- R188 (the spec's own inference from R187): (a) below the threshold DT stands; (b), (c) from the threshold on it
falls at every update until 0, whatever `dt`; (d) sixty updates of 1/60 s take 100 to 40 in one second exactly; (e)
under every rule of the configuration the update is that of some boolean `fire`. -/
def Obligations.TimerConsequences : Prop :=
  (∀ (s : State) (d : Seconds), s.cfg.timerRule = .threshold → s.tacc.val + d.val < 1 / 60 →
    (s.timerUpdate d).dt = s.dt) ∧
  (∀ (s : State) (d : Seconds), s.cfg.timerRule = .threshold → 1 / 60 ≤ s.tacc.val →
    1 / 60 ≤ (s.timerUpdate d).tacc.val ∧ (s.timerUpdate d).dt.toNat = s.dt.toNat - 1) ∧
  (∀ s : State, s.cfg.timerRule = .threshold → s.dt = 100 → s.tacc = Seconds.zero →
    ((fun u : State => u.timerUpdate (Seconds.frac 1 60))^[60] s).dt = 40 ∧
    ((fun u : State => u.timerUpdate (Seconds.frac 1 60))^[60] s).tacc.val = 1) ∧
  ∀ (s : State) (d : Seconds), ∃ fire : Bool,
    (s.timerUpdate d).dt.toNat = if fire = true ∧ 0 < s.dt.toNat then s.dt.toNat - 1 else s.dt.toNat

/-- 95_test_vectors.md 2.7: fourteen updates of 1/600 s from DT = 5 tell the spec's rule (DT = 0) from the alternative
reading of C3 (DT = 4). The alternative is a setting of the configuration, not the spec's rule (assumption 11). -/
def Obligations.TimerReadingsDiffer : Prop :=
  ∀ s : State, s.dt = 5 → s.tacc = Seconds.zero → s.tlast = Seconds.zero →
    (s.cfg.timerRule = .threshold →
      ((fun u : State => u.timerUpdate (Seconds.frac 1 600))^[14] s).dt = 0) ∧
    (s.cfg.timerRule = .sinceLast →
      ((fun u : State => u.timerUpdate (Seconds.frac 1 600))^[14] s).dt = 4)

/-- R27, R34: TACC grows by exactly the `dt` of each update and nothing else touches it. The model's own: that a
TimerUpdate call adds its `dt` on a halted core too (assumption 16), and that the configuration is a part of the state
that no step changes (assumption 4). -/
def Obligations.ElapsedTimeOnlyAccumulates : Prop :=
  ∀ s t : State, step s = .next t →
    t.cfg = s.cfg ∧ s.tacc.le t.tacc ∧
    (match s.calls with
     | .timerUpdate d :: _ => t.tacc = s.tacc.add d
     | .load _ :: _ | .loadByte _ _ :: _ | .reset :: _ => t.tacc = s.tacc
     | _ => t.tacc = if s.fault = none then s.tacc.add s.input.dt else s.tacc)

/-! ### The instructions -/

/-- R120. -/
def Obligations.ClearScreenEffect : Prop :=
  encode .cls = 0x00E0 ∧
  ∀ s : State, ∃ t, exec .cls s = .next t ∧ (∀ yy xx, yy < 32 → xx < 64 → t.fb.pixel yy xx = false) ∧
    t.dirty = true ∧ t.pc = s.pc + 2 ∧ UnchangedBut [.frame, .dirty] s t

/-- R121: refused on VF; MemoryOutOfBounds, with nothing written, when a row is outside memory; else the XOR, the
collision, the unconditional DIRTY. -/
def Obligations.DrawSpriteEffect : Prop :=
  ∀ (x y n : Nibble) (s : State),
    encode (.drw x y n) = 0xD000 ||| x.setWidth 16 <<< 8 ||| y.setWidth 16 <<< 4 ||| n.setWidth 16 ∧
    (x = 15 ∨ y = 15 → exec (.drw x y n) s = .refused .vfOperandOfFlagWriter) ∧
    (x ≠ 15 → y ≠ 15 → memSize < s.i.toNat + n.toNat →
      ∃ t, exec (.drw x y n) s = .next t ∧ TookFault .memoryOutOfBounds (0xD000 ||| x.setWidth 16 <<< 8 |||
        y.setWidth 16 <<< 4 ||| n.setWidth 16) s t) ∧
    (x ≠ 15 → y ≠ 15 → s.i.toNat + n.toNat ≤ memSize →
      ∃ t, exec (.drw x y n) s = .next t ∧
        (∀ yy xx, yy < 32 → xx < 64 → t.fb.pixel yy xx =
          (s.fb.pixel yy xx ^^ s.spriteBit (s.reg x).toNat (s.reg y).toNat n.toNat yy xx)) ∧
        ((∃ yy xx, yy < 32 ∧ xx < 64 ∧ s.fb.pixel yy xx = true ∧
            s.spriteBit (s.reg x).toNat (s.reg y).toNat n.toNat yy xx = true) → t.reg 15 = 1) ∧
        ((¬ ∃ yy xx, yy < 32 ∧ xx < 64 ∧ s.fb.pixel yy xx = true ∧
            s.spriteBit (s.reg x).toNat (s.reg y).toNat n.toNat yy xx = true) → t.reg 15 = 0) ∧
        (∀ r, r ≠ 15 → t.reg r = s.reg r) ∧ t.dirty = true ∧ t.pc = s.pc + 2 ∧
        UnchangedBut [.regs, .frame, .dirty] s t)

/-- R122 (the spec's own inference from R121): (a) drawing twice restores the frame buffer, and the second draw
collides exactly when some sprite bit 1 landed on a pixel that was 0; (b) nothing outside the rectangle changes; (c) a
pixel changes exactly under an in-bounds sprite bit 1; (d) VF after does not depend on VF before. -/
def Obligations.DrawTwiceRestores : Prop :=
  ∀ (x y n : Nibble) (s : State), x ≠ 15 → y ≠ 15 → s.i.toNat + n.toNat ≤ memSize →
    ∃ t u, exec (.drw x y n) s = .next t ∧ exec (.drw x y n) t = .next u ∧ u.fb = s.fb ∧
      (u.reg 15 = 1 ↔ ∃ yy xx, yy < 32 ∧ xx < 64 ∧ s.fb.pixel yy xx = false ∧
        s.spriteBit (s.reg x).toNat (s.reg y).toNat n.toNat yy xx = true) ∧
      (∀ yy xx, ¬ ((s.reg x).toNat ≤ xx ∧ xx ≤ (s.reg x).toNat + 7 ∧ (s.reg y).toNat ≤ yy ∧
          yy < (s.reg y).toNat + n.toNat) → t.fb.pixel yy xx = s.fb.pixel yy xx) ∧
      (∀ yy xx, t.fb.pixel yy xx ≠ s.fb.pixel yy xx ↔
        (yy < 32 ∧ xx < 64 ∧ s.spriteBit (s.reg x).toNat (s.reg y).toNat n.toNat yy xx = true)) ∧
      ∀ b, ∃ t', exec (.drw x y n) (s.setReg 15 b) = .next t' ∧ t'.reg 15 = t.reg 15

/-- R130. -/
def Obligations.ReturnPops : Prop :=
  encode .ret = 0x00EE ∧ ∀ s : State,
    (s.sp = 0 → ∃ t, exec .ret s = .next t ∧ TookFault .stackUnderflow 0x00EE s t) ∧
    (s.sp ≠ 0 → ∃ t, exec .ret s = .next t ∧ t.sp = s.sp - 1 ∧ t.pc = s.stack.getD (s.sp - 1) 0 ∧
      t.stack.getD (s.sp - 1) 0 = 0 ∧ t.stack.length = s.stack.length ∧
      (∀ j, j ≠ s.sp - 1 → t.stack.getD j 0 = s.stack.getD j 0) ∧ UnchangedBut [.stack] s t)

/-- R131. -/
def Obligations.JumpSetsCounter : Prop :=
  ∀ (addr : Addr) (s : State), encode (.jp addr) = 0x1000 ||| addr.setWidth 16 ∧
    ∃ t, exec (.jp addr) s = .next t ∧ t.pc.toNat = addr.toNat ∧ UnchangedBut [] s t

/-- R132: the slots of the stack are as many as its depth, an invariant of the model. -/
def Obligations.CallPushes : Prop :=
  ∀ (addr : Addr) (s : State), s.stack.length = s.cfg.stackDepth →
    encode (.call addr) = 0x2000 ||| addr.setWidth 16 ∧
    (s.sp = s.cfg.stackDepth → ∃ t, exec (.call addr) s = .next t ∧
      TookFault .stackOverflow (0x2000 ||| addr.setWidth 16) s t) ∧
    (s.sp < s.cfg.stackDepth → s.pc.toNat ≤ 0xFFE → ∃ t, exec (.call addr) s = .next t ∧
      (t.stack.getD s.sp 0).toNat = s.pc.toNat + 2 ∧ t.stack.length = s.stack.length ∧
      (∀ j, j ≠ s.sp → t.stack.getD j 0 = s.stack.getD j 0) ∧ t.sp = s.sp + 1 ∧ t.pc.toNat = addr.toNat ∧
      UnchangedBut [.stack] s t)

/-- S4 of 95_test_vectors.md: a return after a call goes to the instruction after the call and restores SP; nothing
else has changed but the slot the call used, which is now 0. -/
def Obligations.CallThenReturnRoundTrip : Prop :=
  ∀ (addr : Addr) (s : State), s.stack.length = s.cfg.stackDepth → s.sp < s.cfg.stackDepth →
    ∃ t u, exec (.call addr) s = .next t ∧ exec .ret t = .next u ∧ u.pc = s.pc + 2 ∧ u.sp = s.sp ∧
      u.stack = s.stack.set s.sp 0 ∧ UnchangedBut [.stack] s u

/-- R133. -/
def Obligations.SkipIfEqual : Prop :=
  ∀ (x : Nibble) (kk : Byte) (s : State),
    encode (.se x kk) = 0x3000 ||| x.setWidth 16 <<< 8 ||| kk.setWidth 16 ∧ ∃ t, exec (.se x kk) s = .next t ∧
    (s.reg x = kk → t.pc = s.pc + 4) ∧ (s.reg x ≠ kk → t.pc = s.pc + 2) ∧ UnchangedBut [] s t

/-- R134: `s.input` is the input of the tick that executes the instruction. -/
def Obligations.SkipIfKeyNotPressed : Prop :=
  ∀ (x : Nibble) (s : State), encode (.sknp x) = 0xE0A1 ||| x.setWidth 16 <<< 8 ∧
    (15 < (s.reg x).toNat → ∃ t, exec (.sknp x) s = .next t ∧
      TookFault .keypadIndexOutOfRange (0xE0A1 ||| x.setWidth 16 <<< 8) s t) ∧
    ∀ h : (s.reg x).toNat < 16, ∃ t, exec (.sknp x) s = .next t ∧
      (s.input.key[(s.reg x).toNat] = false → t.pc = s.pc + 4) ∧
      (s.input.key[(s.reg x).toNat] = true → t.pc = s.pc + 2) ∧ UnchangedBut [] s t

/-- R140: every register, VF among them, and every byte. -/
def Obligations.LoadImmediateEffect : Prop :=
  ∀ (x : Nibble) (kk : Byte) (s : State),
    encode (.ldImm x kk) = 0x6000 ||| x.setWidth 16 <<< 8 ||| kk.setWidth 16 ∧
    ∃ t, exec (.ldImm x kk) s = .next t ∧ t.reg x = kk ∧ (∀ r, r ≠ x → t.reg r = s.reg r) ∧ t.pc = s.pc + 2 ∧
      UnchangedBut [.regs] s t

/-- R141: the sum wraps and no flag is written (VF is unchanged unless it is the destination). -/
def Obligations.AddImmediateWraps : Prop :=
  ∀ (x : Nibble) (kk : Byte) (s : State),
    encode (.addImm x kk) = 0x7000 ||| x.setWidth 16 <<< 8 ||| kk.setWidth 16 ∧
    ∃ t, exec (.addImm x kk) s = .next t ∧ (t.reg x).toNat = ((s.reg x).toNat + kk.toNat) % 256 ∧
      (∀ r, r ≠ x → t.reg r = s.reg r) ∧ t.pc = s.pc + 2 ∧ UnchangedBut [.regs] s t

/-- R142, and R146 for SHL: refused on VF; the amount is 1 for one register named twice, else the value of `V[y]`;
from 8 on the configured reading of ShiftWide decides; the flag is the most significant bit before the shift. -/
def Obligations.ShiftLeftEffect : Prop :=
  ∀ (x y : Nibble) (s : State),
    encode (.shl x y) = 0x800E ||| x.setWidth 16 <<< 8 ||| y.setWidth 16 <<< 4 ∧
    (x = 15 ∨ y = 15 → exec (.shl x y) s = .refused .vfOperandOfFlagWriter) ∧
    (x ≠ 15 → y ≠ 15 → ∀ k, k = (if x = y then 1 else (s.reg y).toNat) →
      (8 ≤ k → s.cfg.shiftWide = .refuse → exec (.shl x y) s = .refused .shiftAmountTooWide) ∧
      (¬ (8 ≤ k ∧ s.cfg.shiftWide = .refuse) → ∃ t, exec (.shl x y) s = .next t ∧
        (k ≤ 7 → (t.reg x).toNat = (s.reg x).toNat * 2 ^ k % 256) ∧
        (8 ≤ k → s.cfg.shiftWide = .zero → t.reg x = 0) ∧
        (8 ≤ k → s.cfg.shiftWide = .mod8 → (t.reg x).toNat = (s.reg x).toNat * 2 ^ (k % 8) % 256) ∧
        (t.reg 15).toNat = (s.reg x).toNat / 128 ∧ (∀ r, r ≠ x → r ≠ 15 → t.reg r = s.reg r) ∧ t.pc = s.pc + 2 ∧
        UnchangedBut [.regs] s t))

/-- R143, and R146 for SHR: the mirror image, logical, with the least significant bit before the shift as the flag. -/
def Obligations.ShiftRightEffect : Prop :=
  ∀ (x y : Nibble) (s : State),
    encode (.shr x y) = 0x8006 ||| x.setWidth 16 <<< 8 ||| y.setWidth 16 <<< 4 ∧
    (x = 15 ∨ y = 15 → exec (.shr x y) s = .refused .vfOperandOfFlagWriter) ∧
    (x ≠ 15 → y ≠ 15 → ∀ k, k = (if x = y then 1 else (s.reg y).toNat) →
      (8 ≤ k → s.cfg.shiftWide = .refuse → exec (.shr x y) s = .refused .shiftAmountTooWide) ∧
      (¬ (8 ≤ k ∧ s.cfg.shiftWide = .refuse) → ∃ t, exec (.shr x y) s = .next t ∧
        (k ≤ 7 → (t.reg x).toNat = (s.reg x).toNat / 2 ^ k) ∧
        (8 ≤ k → s.cfg.shiftWide = .zero → t.reg x = 0) ∧
        (8 ≤ k → s.cfg.shiftWide = .mod8 → (t.reg x).toNat = (s.reg x).toNat / 2 ^ (k % 8)) ∧
        (t.reg 15).toNat = (s.reg x).toNat % 2 ∧ (∀ r, r ≠ x → r ≠ 15 → t.reg r = s.reg r) ∧ t.pc = s.pc + 2 ∧
        UnchangedBut [.regs] s t))

/-- R147: SHL, SHR and DRW decode with VF as an operand and are refused, before any fault check; no other instruction
answers that refusal. -/
def Obligations.FlagWritersRefuseVf : Prop :=
  (∀ (x y n : Nibble) (s : State), x = 15 ∨ y = 15 →
    decode (encode (.shl x y)) = some (.shl x y) ∧ decode (encode (.shr x y)) = some (.shr x y) ∧
    decode (encode (.drw x y n)) = some (.drw x y n) ∧
    exec (.shl x y) s = .refused .vfOperandOfFlagWriter ∧ exec (.shr x y) s = .refused .vfOperandOfFlagWriter ∧
    exec (.drw x y n) s = .refused .vfOperandOfFlagWriter) ∧
  ∀ (i : Instr) (s : State), exec i s = .refused .vfOperandOfFlagWriter →
    ∃ x y, (x = 15 ∨ y = 15) ∧ (i = .shl x y ∨ i = .shr x y ∨ ∃ n, i = .drw x y n)

/-- R144: the tick's random byte AND `kk`, for whatever byte the tick brings. -/
def Obligations.RandomAndMask : Prop :=
  ∀ (x : Nibble) (kk : Byte) (s : State),
    encode (.rnd x kk) = 0xC000 ||| x.setWidth 16 <<< 8 ||| kk.setWidth 16 ∧
    ∃ t, exec (.rnd x kk) s = .next t ∧ t.reg x = s.input.rnd &&& kk ∧ t.reg x &&& ~~~kk = 0 ∧
      (∀ r, r ≠ x → t.reg r = s.reg r) ∧ t.pc = s.pc + 2 ∧ UnchangedBut [.regs] s t

/-- R150. -/
def Obligations.LoadIndexEffect : Prop :=
  ∀ (addr : Addr) (s : State), encode (.ldI addr) = 0xA000 ||| addr.setWidth 16 ∧
    ∃ t, exec (.ldI addr) s = .next t ∧ t.i = addr ∧ t.pc = s.pc + 2 ∧ UnchangedBut [.index] s t

/-- R151: exact and not masked. -/
def Obligations.LoadGlyphAddress : Prop :=
  ∀ (x : Nibble) (s : State), encode (.ldF x) = 0xF029 ||| x.setWidth 16 <<< 8 ∧
    ∃ t, exec (.ldF x) s = .next t ∧ t.i.toNat = 5 * (s.reg x).toNat ∧ t.pc = s.pc + 2 ∧ UnchangedBut [.index] s t

/-- R152: the digits at I, I+1, I+2 and no other byte; MemoryOutOfBounds before the first write. Memory in its
canonical form is an invariant of the model. -/
def Obligations.StoreDecimalDigits : Prop :=
  ∀ (x : Nibble) (s : State), Memory.wf s.cfg s.mem →
    encode (.ldB x) = 0xF033 ||| x.setWidth 16 <<< 8 ∧
    (memSize ≤ s.i.toNat + 2 → ∃ t, exec (.ldB x) s = .next t ∧
      TookFault .memoryOutOfBounds (0xF033 ||| x.setWidth 16 <<< 8) s t) ∧
    (s.i.toNat + 2 < memSize → ∃ t, exec (.ldB x) s = .next t ∧
      (t.peek s.i.toNat).toNat = (s.reg x).toNat / 100 ∧
      (t.peek (s.i.toNat + 1)).toNat = (s.reg x).toNat / 10 % 10 ∧
      (t.peek (s.i.toNat + 2)).toNat = (s.reg x).toNat % 10 ∧
      (∀ a, a < s.i.toNat ∨ s.i.toNat + 2 < a → t.peek a = s.peek a) ∧
      t.pc = s.pc + 2 ∧ UnchangedBut [.memory] s t)

/-- R153: V0 to Vx from I to I+x, I unchanged; MemoryOutOfBounds before any register is written. -/
def Obligations.BlockLoadEffect : Prop :=
  ∀ (x : Nibble) (s : State), encode (.ldVxI x) = 0xF065 ||| x.setWidth 16 <<< 8 ∧
    (memSize ≤ s.i.toNat + x.toNat → ∃ t, exec (.ldVxI x) s = .next t ∧
      TookFault .memoryOutOfBounds (0xF065 ||| x.setWidth 16 <<< 8) s t) ∧
    (s.i.toNat + x.toNat < memSize → ∃ t, exec (.ldVxI x) s = .next t ∧
      (∀ r : Nibble, r.toNat ≤ x.toNat → t.reg r = s.peek (s.i.toNat + r.toNat)) ∧
      (∀ r : Nibble, x.toNat < r.toNat → t.reg r = s.reg r) ∧
      t.pc = s.pc + 2 ∧ UnchangedBut [.regs] s t)

/-- R160 and R161, with the order of R100: one reads DT, the other writes it, TACC is touched by neither; in a tick
the value read is the one after this tick's update, and the value written is not decremented by this tick. -/
def Obligations.DelayTimerAccess : Prop :=
  ∀ (x : Nibble) (s : State), encode (.ldVxDt x) = 0xF007 ||| x.setWidth 16 <<< 8 ∧
    encode (.ldDtVx x) = 0xF015 ||| x.setWidth 16 <<< 8 ∧
    (∃ t, exec (.ldVxDt x) s = .next t ∧ t.reg x = s.dt ∧ (∀ r, r ≠ x → t.reg r = s.reg r) ∧ t.pc = s.pc + 2 ∧
      UnchangedBut [.regs] s t) ∧
    (∃ t, exec (.ldDtVx x) s = .next t ∧ t.dt = s.reg x ∧ t.pc = s.pc + 2 ∧ UnchangedBut [.delay] s t) ∧
    (s.Executes (.ldVxDt x) → ∃ t, step s = .next t ∧ t.reg x = (s.timerUpdate s.input.dt).dt ∧
      t.dt = (s.timerUpdate s.input.dt).dt) ∧
    (s.Executes (.ldDtVx x) → ∃ t, step s = .next t ∧ t.dt = s.reg x ∧ t.tacc = s.tacc.add s.input.dt)

/-! ### The driver's other calls -/

/-- R40, R41, R42: every value after construction, for every configuration. -/
def Obligations.ConstructionValues : Prop :=
  ∀ (c : Config) (s : State), s = State.construct c →
    (∀ r, s.reg r = 0) ∧ s.i = 0 ∧ s.sp = 0 ∧ s.stack.length = c.stackDepth ∧ (∀ a ∈ s.stack, a = 0) ∧ s.dt = 0 ∧
    s.tacc.val = 0 ∧ (∀ yy xx, s.fb.pixel yy xx = false) ∧ s.dirty = false ∧ s.fault = none ∧
    s.pc.toNat = c.progBase.toNat ∧ (∀ a, (h : a < 80) → s.peek a = c.font[a]) ∧ ∀ a, 80 ≤ a → s.peek a = 0

/-- R201: Load copies the bytes that fit from PROG_BASE upward and changes nothing else. -/
def Obligations.LoadPlacesBytes : Prop :=
  ∀ (s : State) (bytes : List Byte) (rest : List DriverCall), Memory.wf s.cfg s.mem → s.calls = .load bytes :: rest →
    ∃ t, step s = .next t ∧ t.calls = rest ∧ t.pc = s.pc ∧ t.cfg = s.cfg ∧
      (∀ j, (h : j < bytes.length) → s.cfg.progBase.toNat + j < memSize →
        t.peek (s.cfg.progBase.toNat + j) = bytes[j]) ∧
      (∀ a, a < s.cfg.progBase.toNat ∨ s.cfg.progBase.toNat + bytes.length ≤ a ∨ memSize ≤ a → t.peek a = s.peek a) ∧
      UnchangedBut [.memory, .outside] s t

/-- R202, R43: the reset operation writes PC and SP, and nothing else, FAULT included. -/
def Obligations.ResetWritesOnlyPcAndSp : Prop :=
  ∀ (s : State) (rest : List DriverCall), s.calls = .reset :: rest →
    ∃ t, step s = .next t ∧ t.calls = rest ∧ t.cfg = s.cfg ∧ t.pc.toNat = s.cfg.progBase.toNat ∧ t.sp = 0 ∧
      t.stack = s.stack ∧ UnchangedBut [.stack, .outside] s t

/-- R203 (the spec's own inference from R200 and R87): a core ticked without a load halts at its first tick on the
word 0 at PROG_BASE, whatever the inputs of that tick. The model's own: with no call pending the next step is a tick on
free inputs (assumptions 2, 3, 18). -/
def Obligations.TickWithoutLoadHalts : Prop :=
  ∀ (c : Config) (s : State), c.wf = true → c.progBase.toNat ≤ 0xFFE →
    (∃ cs n, s = { State.construct c with calls := cs, draws := n }) → s.nextIsTick = true →
    ∃ t, step s = .next t ∧ TickFaulted ⟨.unknownOpcode, c.progBase.setWidth 16, 0⟩ s t

/-- R214 after the boot of R203 (both the spec's own inference): a core just constructed that loads an image that fits
meets the launch premises, with the font intact and every register zero. The model's own: the load is a driver call
(assumption 2), and the invariant's clauses on memory's form and the timer's mark (assumptions 11, 21). -/
def Obligations.LoadAfterConstructionLaunches : Prop :=
  ∀ (c : Config) (s : State) (image : List Byte) (rest : List DriverCall), c.wf = true →
    c.progBase.toNat + image.length ≤ memSize → s = { State.construct c with calls := .load image :: rest } →
    ∃ t, step s = .next t ∧ t.LaunchedWithFont image ∧ t.AllZero ∧ t.cfg = c ∧ t.calls = rest

/-! ### The whole machine -/

/-- R46 (the spec's own inference), with the model's own clauses: the length of the slot list, memory's canonical form
(assumption 21), the mark of the last decrement (assumption 11). The invariant holds right after construction under any
well-formed configuration, and at State.reset, the default one (assumptions 5, 6). -/
def Obligations.ConstructionMeetsInvariant : Prop :=
  (∀ c : Config, c.wf = true → (State.construct c).Inv) ∧ State.reset.Inv

/-- R46 (the spec's own inference) with R11, R24, R25, and the model's own clauses: the length of the slot list,
memory's canonical form (assumption 21), the mark of the last decrement (assumption 11). Every step keeps the
invariant. -/
def Obligations.EveryStepKeepsInvariant : Prop :=
  ∀ s t : State, s.Inv → step s = .next t → t.Inv

/-- R28: only CLS and DRW change the frame buffer. -/
def Obligations.OnlyDisplayInstructionsChangeFrame : Prop :=
  ∀ (s t : State) (yy xx : Nat), step s = .next t → t.fb.pixel yy xx ≠ s.fb.pixel yy xx →
    s.Executes .cls ∨ ∃ x y n, s.Executes (.drw x y n)

/-- R67: only the three bytes of LD B and the range of Load are ever written. A write of the load port is one of Load's
(assumption 27). -/
def Obligations.OnlyDigitsAndLoadWriteMemory : Prop :=
  ∀ (s t : State) (a : Nat), Memory.wf s.cfg s.mem → step s = .next t → t.peek a ≠ s.peek a →
    ((∃ x, s.Executes (.ldB x)) ∧ s.i.toNat ≤ a ∧ a ≤ s.i.toNat + 2 ∧ a < memSize) ∨
    (((∃ bytes rest, s.calls = .load bytes :: rest) ∨
        ∃ (addr : Addr) (b : Byte) (rest : _), s.calls = .loadByte addr b :: rest ∧ a = addr.toNat) ∧
      s.cfg.progBase.toNat ≤ a ∧ a < memSize)

/-- R20, R21: a register changes only by an instruction whose destination it is; VF also by the three flag writers. -/
def Obligations.RegistersChangeOnlyByWriters : Prop :=
  ∀ (s t : State) (r : Nibble), step s = .next t → t.reg r ≠ s.reg r → ∃ i, s.Executes i ∧ mayWrite i r

/-- R22, R24, R135: only LD I and LD F change I; only CALL, RET and the reset operation touch the stack. -/
def Obligations.IndexAndStackHaveFewWriters : Prop :=
  ∀ s t : State, step s = .next t →
    (t.i ≠ s.i → (∃ addr, s.Executes (.ldI addr)) ∨ ∃ x, s.Executes (.ldF x)) ∧
    (t.sp ≠ s.sp ∨ t.stack ≠ s.stack →
      s.Executes .ret ∨ (∃ addr, s.Executes (.call addr)) ∨ ∃ rest, s.calls = .reset :: rest)

/-- R25 (the spec's own inference from R130, R132, R202): free slots hold 0 from construction on, unless the reset
operation is used with a non-empty stack. -/
def Obligations.FreeSlotsStayClear : Prop :=
  (∀ c, (State.construct c).VacatedClear) ∧
  ∀ s t : State, s.VacatedClear → (∀ rest, s.calls = .reset :: rest → s.sp = 0) → step s = .next t → t.VacatedClear

/-- R25, its last sentence: the contents of free slots are unobservable: two states that differ in them only take
steps that differ in them only. -/
def Obligations.FreeSlotsAreUnobservable : Prop :=
  ∀ s t : State, SameButFreeSlots s t →
    (∀ s', step s = .next s' → ∃ t', step t = .next t' ∧ SameButFreeSlots s' t') ∧
    (∀ r, step s = .refused r → step t = .refused r)

/-- R204 (the spec's convention D32; assumption 22): at a resting point every tick leaves all but TACC, DT and DIRTY,
and the core stays at rest. -/
def Obligations.RestingPointStays : Prop :=
  ∀ s : State, s.Resting → s.nextIsTick = true →
    ∃ t, step s = .next t ∧ t.pc = s.pc ∧ t.cfg = s.cfg ∧ t.dirty = false ∧
      UnchangedBut [.delay, .elapsed, .dirty, .outside] s t ∧ t.Resting

/-- R64 (the spec's own inference): a digit stored where the next instruction lies is what the next fetch reads. -/
def Obligations.StoredCodeIsFetchedNext : Prop :=
  ∀ (x : Nibble) (s : State), Memory.wf s.cfg s.mem → s.i.toNat + 2 < memSize → s.pc.toNat + 2 = s.i.toNat →
    ∃ t w, exec (.ldB x) s = .next t ∧ t.fetch = some w ∧
      w.toNat = (s.reg x).toNat / 100 * 256 + (s.reg x).toNat / 10 % 10

/-- R210, the `load` port (the spec's choice D26; assumption 27): a write strobe writes its byte at its address from
PROG_BASE upward and nothing else, and Load is the writes of its bytes at consecutive addresses, one after the other. -/
def Obligations.LoadPortWritesOneByte : Prop :=
  (∀ (s : State) (addr : Addr) (b : Byte) (rest : List DriverCall), Memory.wf s.cfg s.mem →
    s.calls = .loadByte addr b :: rest →
    ∃ t, step s = .next t ∧ t.calls = rest ∧ t.pc = s.pc ∧ t.cfg = s.cfg ∧
      (s.cfg.progBase.toNat ≤ addr.toNat → t.peek addr.toNat = b) ∧
      (∀ a, a ≠ addr.toNat ∨ a < s.cfg.progBase.toNat → t.peek a = s.peek a) ∧ UnchangedBut [.memory, .outside] s t) ∧
  ∀ (s : State) (bytes : List Byte), s.cfg.progBase.toNat + bytes.length ≤ memSize →
    s.load bytes = bytes.zipIdx.foldl (fun t p => t.loadByte (BitVec.ofNat 12 (s.cfg.progBase.toNat + p.2)) p.1) s

/-- R210, the port-level view (the spec's choice D26; assumption 26): every output port shows its part of the state,
with 0 on the fault ports while no fault is latched; the input ports give a tick its `dt`, keys and random byte; each
strobe is a call of the driver, and `por` is construction. -/
def Obligations.PortsShowTheState : Prop :=
  (∀ (s : State) (yy xx : Nat), yy < 32 → xx < 64 → s.ports.fb.getLsbD (64 * yy + xx) = s.fb.pixel yy xx) ∧
  (∀ s : State, s.ports.dirty = s.dirty ∧ s.ports.tacc = s.tacc ∧ s.ports.faultValid = s.fault.isSome) ∧
  (∀ (s : State) (r : FaultRecord), s.fault = some r →
    s.ports.faultCause = r.cause.code ∧ s.ports.faultPc = r.pc ∧ s.ports.faultOp = r.op) ∧
  (∀ s : State, s.fault = none → s.ports.faultCause = 0 ∧ s.ports.faultPc = 0 ∧ s.ports.faultOp = 0) ∧
  (∀ (u d : Nat) (key : BitVec 16) (rnd : Byte), 0 < u →
    (TickInput.ofPorts (60 * u) d key rnd).dt.val * (60 * u) = d ∧ (TickInput.ofPorts (60 * u) u key rnd).dt = t60 ∧
    (TickInput.ofPorts (60 * u) d key rnd).rnd = rnd ∧
    ∀ k, (h : k < 16) → (TickInput.ofPorts (60 * u) d key rnd).key[k] = key.getLsbD k) ∧
  ∀ (s : State) (f : Nat),
    (∀ d key rnd, s.onStrobe f (.tick d key rnd) =
      step { s with calls := .tick (TickInput.ofPorts f d key rnd) :: s.calls }) ∧
    s.onStrobe f .resetPc = step { s with calls := .reset :: s.calls } ∧
    (∀ addr b, s.onStrobe f (.load addr b) = step { s with calls := .loadByte addr b :: s.calls }) ∧
    s.onStrobe f .por = .next (State.construct s.cfg)
end

