-- ==== Sys2Proof/Laws/Frame.lean ====
section
/-! SUPPORT. Laws of the frame buffer and of the sprite drawing (41_display.md R120 to R122). -/

namespace Sys2Proof.Machine

open Sys2Proof

@[simp] theorem Frame.pixel_blank (yy xx : Nat) : Frame.blank.pixel yy xx = false := by
  simp [Frame.pixel, Frame.blank]

theorem Frame.pixel_outside (f : Frame) {yy xx : Nat} (h : ¬ (yy < 32 ∧ xx < 64)) : f.pixel yy xx = false := by
  simp [Frame.pixel, h]

/-- Reading a pixel after a write. -/
theorem Frame.pixel_put (f : Frame) (yy xx y' x' : Nat) (b : Bool) (h : yy < 32 ∧ xx < 64) :
    (f.put yy xx b).pixel y' x' = if y' = yy ∧ x' = xx then b else f.pixel y' x' := by
  by_cases h' : y' < 32 ∧ x' < 64
  · simp only [Frame.pixel, Frame.put, dif_pos h, dif_pos h']
    by_cases hy : yy = y'
    · subst hy
      by_cases hx : xx = x'
      · subst hx; simp
      · simp [hx, Ne.symm hx]
    · simp [hy, Ne.symm hy]
  · rw [Frame.pixel_outside _ h', Frame.pixel_outside _ h', if_neg]
    rintro ⟨rfl, rfl⟩; exact h' h

/-- Two frame buffers with the same pixels are the same. -/
theorem Frame.ext_pixel {f g : Frame} (h : ∀ yy xx, yy < 32 → xx < 64 → f.pixel yy xx = g.pixel yy xx) : f = g := by
  apply Vector.ext
  intro i hi
  apply Vector.ext
  intro j hj
  have := h i j hi hj
  simpa [Frame.pixel, hi, hj] using this

/-- One sprite bit flips its pixel when it is 1 and in bounds, and no other pixel. -/
theorem drawBit_pixel (px py : Nat) (sbit : Bool) (d : Frame × Bool) (yy xx : Nat) :
    (drawBit px py sbit d).1.pixel yy xx =
      (d.1.pixel yy xx ^^ (decide (yy < 32 ∧ xx < 64 ∧ yy = py ∧ xx = px) && sbit)) := by
  unfold drawBit
  split
  · rename_i h
    rw [Frame.pixel_put _ _ _ _ _ _ ⟨h.2, h.1⟩]
    by_cases e : yy = py ∧ xx = px
    · obtain ⟨rfl, rfl⟩ := e; simp [h.1, h.2]
    · rw [if_neg e]
      have : ¬ (yy < 32 ∧ xx < 64 ∧ yy = py ∧ xx = px) := fun k => e k.2.2
      simp [this]
  · rename_i h
    have : ¬ (yy < 32 ∧ xx < 64 ∧ yy = py ∧ xx = px) := by
      rintro ⟨a, b, rfl, rfl⟩; exact h ⟨b, a⟩
    simp [this]

/-- One sprite bit collects a collision when it is 1, in bounds, and the pixel was 1. -/
theorem drawBit_flag (px py : Nat) (sbit : Bool) (d : Frame × Bool) :
    (drawBit px py sbit d).2 = (d.2 || (d.1.pixel py px && sbit)) := by
  unfold drawBit
  split
  · rfl
  · rename_i h
    rw [Frame.pixel_outside _ (fun k => h ⟨k.2, k.1⟩)]; simp

/-- The bit a sprite row aims at column `xx`, when its first column is `x0`. -/
def rowBit (x0 : Nat) (row : Byte) (xx : Nat) : Bool :=
  decide (x0 ≤ xx ∧ xx < x0 + 8) && row.getLsbD (7 - (xx - x0))

/-- The bit the rows of a sprite, first row `y0`, first column `x0`, aim at row `yy`, column `xx`. -/
def rowsBit (x0 y0 : Nat) (rows : List Byte) (yy xx : Nat) : Bool :=
  decide (y0 ≤ yy) && rowBit x0 (rows.getD (yy - y0) 0) xx

/-- The first `k` bits of a sprite row. -/
theorem drawBits_spec (x0 py : Nat) (row : Byte) (d : Frame × Bool) (k : Nat) :
    let e := (List.range k).foldl (fun d b => drawBit (x0 + b) py (row.getLsbD (7 - b)) d) d
    (∀ yy xx, e.1.pixel yy xx = (d.1.pixel yy xx ^^
      (decide (yy < 32 ∧ xx < 64 ∧ yy = py) && (decide (x0 ≤ xx ∧ xx < x0 + k) && row.getLsbD (7 - (xx - x0)))))) ∧
    (e.2 = true ↔ d.2 = true ∨ ∃ xx, d.1.pixel py xx = true ∧
      (decide (x0 ≤ xx ∧ xx < x0 + k) && row.getLsbD (7 - (xx - x0))) = true) := by
  induction k with
  | zero =>
    refine ⟨fun yy xx => ?_, ?_⟩
    · have : ¬ (x0 ≤ xx ∧ xx < x0 + 0) := by omega
      simp only [this, decide_false, Bool.false_and, Bool.and_false, Bool.xor_false, List.range_zero, List.foldl_nil]
    · constructor
      · exact .inl
      · rintro (h | ⟨xx, -, h⟩)
        · exact h
        · simp only [Bool.and_eq_true, decide_eq_true_eq] at h; omega
  | succ k ih =>
    simp only [List.range_succ, List.foldl_append, List.foldl_cons, List.foldl_nil]
    obtain ⟨hp, hf⟩ := ih
    refine ⟨fun yy xx => ?_, ?_⟩
    · rw [drawBit_pixel, hp, Bool.xor_assoc]
      congr 1
      by_cases hx : xx = x0 + k
      · subst hx
        have h1 : ¬ (x0 ≤ x0 + k ∧ x0 + k < x0 + k) := by omega
        have h2 : x0 ≤ x0 + k ∧ x0 + k < x0 + (k + 1) := by omega
        simp [h2]
      · have h1 : ¬ (yy < 32 ∧ xx < 64 ∧ yy = py ∧ xx = x0 + k) := fun h => hx h.2.2.2
        have h2 : (x0 ≤ xx ∧ xx < x0 + (k + 1)) ↔ (x0 ≤ xx ∧ xx < x0 + k) := by omega
        simp only [h1, h2, decide_false, Bool.false_and, Bool.xor_false]
    · rw [drawBit_flag, Bool.or_eq_true, hf, hp]
      have h1 : ¬ (x0 ≤ x0 + k ∧ x0 + k < x0 + k) := by omega
      simp only [h1, decide_false, Bool.false_and, Bool.and_false, Bool.xor_false, Bool.and_eq_true,
        decide_eq_true_eq, or_assoc]
      refine or_congr Iff.rfl ?_
      constructor
      · rintro (⟨xx, a, b, c⟩ | ⟨a, b⟩)
        · exact ⟨xx, a, by omega, c⟩
        · exact ⟨x0 + k, a, by omega, by simpa using b⟩
      · rintro ⟨xx, a, b, c⟩
        by_cases hx : xx = x0 + k
        · subst hx; exact .inr ⟨a, by simpa using c⟩
        · exact .inl ⟨xx, a, by omega, c⟩

/-- One sprite row: its 1 bits flip the in-bounds pixels of its row, and collide with those that were 1. -/
theorem drawRow_spec (x0 py : Nat) (row : Byte) (d : Frame × Bool) :
    (∀ yy xx, (drawRow x0 py row d).1.pixel yy xx =
      (d.1.pixel yy xx ^^ (decide (yy < 32 ∧ xx < 64 ∧ yy = py) && rowBit x0 row xx))) ∧
    ((drawRow x0 py row d).2 = true ↔
      d.2 = true ∨ ∃ xx, d.1.pixel py xx = true ∧ rowBit x0 row xx = true) :=
  drawBits_spec x0 py row d 8

theorem rowBit_zero (x0 xx : Nat) : rowBit x0 0#8 xx = false := by simp [rowBit]

/-- The rows of a sprite from row `y0` on. -/
theorem drawRows_spec (x0 : Nat) (rows : List Byte) : ∀ (y0 : Nat) (d : Frame × Bool),
    (∀ yy xx, (drawRows x0 y0 rows d).1.pixel yy xx =
      (d.1.pixel yy xx ^^ (decide (yy < 32 ∧ xx < 64) && rowsBit x0 y0 rows yy xx))) ∧
    ((drawRows x0 y0 rows d).2 = true ↔
      d.2 = true ∨ ∃ yy xx, d.1.pixel yy xx = true ∧ rowsBit x0 y0 rows yy xx = true) := by
  induction rows with
  | nil => intro y0 d; simp [drawRows, rowsBit, rowBit_zero]
  | cons row rows ih =>
    intro y0 d
    obtain ⟨hp, hf⟩ := drawRow_spec x0 y0 row d
    obtain ⟨ip, jf⟩ := ih (y0 + 1) (drawRow x0 y0 row d)
    have split : ∀ yy xx, rowsBit x0 y0 (row :: rows) yy xx =
        if yy = y0 then rowBit x0 row xx else rowsBit x0 (y0 + 1) rows yy xx := by
      intro yy xx
      by_cases h : yy = y0
      · subst h; simp [rowsBit]
      · by_cases h' : y0 + 1 ≤ yy
        · obtain ⟨j, rfl⟩ : ∃ j, yy = y0 + 1 + j := ⟨yy - (y0 + 1), by omega⟩
          simp [rowsBit, h, show y0 ≤ y0 + 1 + j by omega, show y0 + 1 + j - y0 = j + 1 by omega]
        · simp [rowsBit, h, h', show ¬ y0 ≤ yy by omega]
    have off : ∀ xx, rowsBit x0 (y0 + 1) rows y0 xx = false := by intro xx; simp [rowsBit]
    refine ⟨fun yy xx => ?_, ?_⟩
    · rw [drawRows, ip, hp, Bool.xor_assoc, split]
      congr 1
      by_cases h : yy = y0
      · subst h; simp [off]
      · simp [h]
    · rw [drawRows, jf, hf, or_assoc]
      refine or_congr Iff.rfl ?_
      constructor
      · rintro (⟨xx, a, b⟩ | ⟨yy, xx, a, b⟩)
        · exact ⟨y0, xx, a, by rw [split, if_pos rfl]; exact b⟩
        · have h : yy ≠ y0 := by rintro rfl; simp [off] at b
          rw [hp] at a
          exact ⟨yy, xx, by simpa [h] using a, by rw [split, if_neg h]; exact b⟩
      · rintro ⟨yy, xx, a, b⟩
        rw [split] at b
        by_cases h : yy = y0
        · subst h; rw [if_pos rfl] at b; exact .inl ⟨xx, a, b⟩
        · rw [if_neg h] at b
          exact .inr ⟨yy, xx, by rw [hp]; simpa [h] using a, b⟩

/-- A sprite (R121): an in-bounds pixel is XORed with the sprite bit aimed at it, and a collision is a pixel that was 1
under a sprite bit 1. -/
theorem drawSprite_spec (x0 y0 : Nat) (rows : List Byte) (f : Frame) :
    (∀ yy xx, (drawSprite x0 y0 rows f).1.pixel yy xx =
      (f.pixel yy xx ^^ (decide (yy < 32 ∧ xx < 64) && rowsBit x0 y0 rows yy xx))) ∧
    ((drawSprite x0 y0 rows f).2 = true ↔
      ∃ yy xx, f.pixel yy xx = true ∧ rowsBit x0 y0 rows yy xx = true) := by
  have h := drawRows_spec x0 rows y0 (f, false)
  exact ⟨h.1, h.2.trans (by simp)⟩

end Sys2Proof.Machine
end

