-- ==== Sys2Proof/Laws/Memory.lean ====
section
/-! SUPPORT. Laws of memory: read after write, writes elsewhere, the canonical form (20_memory.md R51, R52, R56). -/

namespace Sys2Proof.Machine

open Sys2Proof

theorem Memory.get_put (c : Config) (m : Memory) (a k : Nat) (b : Byte) (h : m.Pairwise fun p q => p.1 < q.1) :
    (m.put c a b).get c k = if k = a then b else m.get c k := by
  induction m with
  | nil => simp only [Memory.put]; split <;> simp_all [Memory.get]
  | cons p m ih =>
    obtain ⟨j, w⟩ := p
    obtain ⟨hj, hm⟩ := List.pairwise_cons.1 h
    simp only [Memory.put]
    have below : ∀ {n : Nat}, n ≤ j → Memory.get c m n = initByte c n := by
      intro n hn
      clear ih h hm
      induction m with
      | nil => rfl
      | cons q m ih =>
        have hq := hj q List.mem_cons_self
        simp only [Memory.get]
        rw [if_neg (by omega)]
        exact ih fun r hr => hj r (List.mem_cons_of_mem _ hr)
    split
    · split
      · simp only [Memory.get]
        by_cases hk : k = a
        · rw [if_neg (by omega), below (by omega)]; simp_all
        · simp [hk]
      · simp [Memory.get]
    · split
      · subst a
        split
        · simp only [Memory.get]
          by_cases hk : k = j
          · rw [below (by omega)]; simp_all
          · simp [hk]
        · simp only [Memory.get]; split <;> rfl
      · simp only [Memory.get, ih hm]
        by_cases hk : k = j
        · rw [if_pos hk, if_neg (by omega), if_pos hk]
        · simp [hk]

/-- Reading back a write. -/
theorem Memory.get_put_same (c : Config) (m : Memory) (a : Nat) (b : Byte) (h : m.Pairwise fun p q => p.1 < q.1) :
    (m.put c a b).get c a = b := by
  simp [Memory.get_put c m a a b h]

theorem Memory.mem_put {c : Config} {m : Memory} {a : Nat} {b : Byte} {p : Host.Cell} (h : p ∈ m.put c a b) :
    p ∈ m ∨ p = (a, b) ∧ b ≠ initByte c a := by
  induction m with
  | nil => simp only [Memory.put] at h; split at h <;> simp_all
  | cons q m ih =>
    simp only [Memory.put] at h
    split at h
    · split at h
      · exact .inl h
      · rcases List.mem_cons.1 h with rfl | h
        · exact .inr ⟨rfl, ‹_›⟩
        · exact .inl h
    · split at h
      · split at h
        · exact .inl (List.mem_cons_of_mem _ h)
        · rcases List.mem_cons.1 h with rfl | h
          · exact .inr ⟨rfl, ‹_›⟩
          · exact .inl (List.mem_cons_of_mem _ h)
      · rcases List.mem_cons.1 h with rfl | h
        · exact .inl List.mem_cons_self
        · exact (ih h).imp (List.mem_cons_of_mem _) id

theorem Memory.put_sorted (c : Config) (m : Memory) (a : Nat) (b : Byte) (h : m.Pairwise fun p q => p.1 < q.1) :
    (m.put c a b).Pairwise fun p q => p.1 < q.1 := by
  induction m with
  | nil => simp only [Memory.put]; split <;> simp
  | cons q m ih =>
    obtain ⟨hq, hm⟩ := List.pairwise_cons.1 h
    simp only [Memory.put]
    split
    · rename_i hlt
      split
      · exact h
      · refine List.pairwise_cons.2 ⟨fun r hr => ?_, h⟩
        rcases List.mem_cons.1 hr with rfl | hr
        · exact hlt
        · exact Nat.lt_trans hlt (hq r hr)
    · split
      · rename_i heq
        split
        · exact hm
        · exact List.pairwise_cons.2 ⟨fun r hr => by simpa [heq] using hq r hr, hm⟩
      · refine List.pairwise_cons.2 ⟨fun r hr => ?_, ih hm⟩
        rcases Memory.mem_put hr with hr | ⟨rfl, -⟩
        · exact hq r hr
        · omega

/-- A write inside memory keeps the canonical form. -/
theorem Memory.put_wf {c : Config} {m : Memory} (h : m.wf c) (a : Nat) (b : Byte) (ha : a < memSize) :
    (m.put c a b).wf c := by
  refine ⟨Memory.put_sorted c m a b h.1, fun p hp => ?_⟩
  rcases Memory.mem_put hp with hp | ⟨rfl, hb⟩
  · exact h.2 p hp
  · exact ⟨ha, hb⟩

theorem Memory.putAll_sorted (c : Config) (bs : List Byte) : ∀ (m : Memory) (a : Nat),
    (m.Pairwise fun p q => p.1 < q.1) → (m.putAll c a bs).Pairwise fun p q => p.1 < q.1 := by
  induction bs with
  | nil => intro m a h; exact h
  | cons b bs ih => intro m a h; exact ih _ _ (Memory.put_sorted c m a b h)

/-- Writes of a whole block inside memory keep the canonical form. -/
theorem Memory.putAll_wf {c : Config} (bs : List Byte) : ∀ {m : Memory} (a : Nat),
    m.wf c → a + bs.length ≤ memSize → (m.putAll c a bs).wf c := by
  induction bs with
  | nil => intro m a h _; exact h
  | cons b bs ih =>
    intro m a h ha
    simp only [List.length_cons] at ha
    exact ih (a + 1) (Memory.put_wf h a b (by omega)) (by omega)

/-- What every address reads as after a block was written. -/
theorem Memory.get_putAll (c : Config) (bs : List Byte) : ∀ (m : Memory) (a k : Nat),
    (m.Pairwise fun p q => p.1 < q.1) →
    (m.putAll c a bs).get c k = if a ≤ k then bs.getD (k - a) (m.get c k) else m.get c k := by
  induction bs with
  | nil => intro m a k _; simp [Memory.putAll]
  | cons b bs ih =>
    intro m a k h
    simp only [Memory.putAll]
    rw [ih _ _ _ (Memory.put_sorted c m a b h), Memory.get_put c m a k b h]
    rcases Nat.lt_trichotomy k a with hk | rfl | hk
    · simp [show ¬ a + 1 ≤ k by omega, show ¬ a ≤ k by omega, show k ≠ a by omega]
    · simp
    · obtain ⟨d, rfl⟩ : ∃ d, k = a + 1 + d := ⟨k - (a + 1), by omega⟩
      simp [show a ≤ a + 1 + d by omega, show a + 1 + d - a = d + 1 by omega, show a + 1 + d ≠ a by omega]

/-- Two writes to one address: the first leaves no trace. -/
theorem Memory.get_put_put (c : Config) (m : Memory) (a k : Nat) (b b' : Byte)
    (h : m.Pairwise fun p q => p.1 < q.1) : ((m.put c a b).put c a b').get c k = (m.put c a b').get c k := by
  rw [Memory.get_put c _ a k b' (Memory.put_sorted c m a b h), Memory.get_put c m a k b h,
    Memory.get_put c m a k b' h]
  split <;> rfl

end Sys2Proof.Machine
end

