-- ==== Sys2Proof/Laws/State.lean ====
section
/-! SUPPORT. One lemma per field per update of the state, and the reads (`reg`, `peek`, `fetch`, `input`) that an update
does not touch: all true by rfl, so that no later proof unfolds a record update. -/

namespace Sys2Proof.Machine

open Sys2Proof

variable (s : State)

/-! ### setReg -/

@[simp] theorem setReg_cfg (x : Nibble) (b : Byte) : (s.setReg x b).cfg = s.cfg := rfl
@[simp] theorem setReg_i (x : Nibble) (b : Byte) : (s.setReg x b).i = s.i := rfl
@[simp] theorem setReg_pc (x : Nibble) (b : Byte) : (s.setReg x b).pc = s.pc := rfl
@[simp] theorem setReg_sp (x : Nibble) (b : Byte) : (s.setReg x b).sp = s.sp := rfl
@[simp] theorem setReg_stack (x : Nibble) (b : Byte) : (s.setReg x b).stack = s.stack := rfl
@[simp] theorem setReg_dt (x : Nibble) (b : Byte) : (s.setReg x b).dt = s.dt := rfl
@[simp] theorem setReg_tacc (x : Nibble) (b : Byte) : (s.setReg x b).tacc = s.tacc := rfl
@[simp] theorem setReg_tlast (x : Nibble) (b : Byte) : (s.setReg x b).tlast = s.tlast := rfl
@[simp] theorem setReg_fb (x : Nibble) (b : Byte) : (s.setReg x b).fb = s.fb := rfl
@[simp] theorem setReg_dirty (x : Nibble) (b : Byte) : (s.setReg x b).dirty = s.dirty := rfl
@[simp] theorem setReg_fault (x : Nibble) (b : Byte) : (s.setReg x b).fault = s.fault := rfl
@[simp] theorem setReg_mem (x : Nibble) (b : Byte) : (s.setReg x b).mem = s.mem := rfl
@[simp] theorem setReg_calls (x : Nibble) (b : Byte) : (s.setReg x b).calls = s.calls := rfl
@[simp] theorem setReg_draws (x : Nibble) (b : Byte) : (s.setReg x b).draws = s.draws := rfl
@[simp] theorem setReg_peek (x : Nibble) (b : Byte) (k : Nat) : (s.setReg x b).peek k = s.peek k := rfl
@[simp] theorem setReg_fetch (x : Nibble) (b : Byte) : (s.setReg x b).fetch = s.fetch := rfl
@[simp] theorem setReg_input (x : Nibble) (b : Byte) : (s.setReg x b).input = s.input := rfl

/-! ### setRegs -/

@[simp] theorem setRegs_cfg (bs : List Byte) : (s.setRegs bs).cfg = s.cfg := rfl
@[simp] theorem setRegs_v (bs : List Byte) : (s.setRegs bs).v = loadRegs 0 bs s.v := rfl
@[simp] theorem setRegs_i (bs : List Byte) : (s.setRegs bs).i = s.i := rfl
@[simp] theorem setRegs_pc (bs : List Byte) : (s.setRegs bs).pc = s.pc := rfl
@[simp] theorem setRegs_sp (bs : List Byte) : (s.setRegs bs).sp = s.sp := rfl
@[simp] theorem setRegs_stack (bs : List Byte) : (s.setRegs bs).stack = s.stack := rfl
@[simp] theorem setRegs_dt (bs : List Byte) : (s.setRegs bs).dt = s.dt := rfl
@[simp] theorem setRegs_tacc (bs : List Byte) : (s.setRegs bs).tacc = s.tacc := rfl
@[simp] theorem setRegs_tlast (bs : List Byte) : (s.setRegs bs).tlast = s.tlast := rfl
@[simp] theorem setRegs_fb (bs : List Byte) : (s.setRegs bs).fb = s.fb := rfl
@[simp] theorem setRegs_dirty (bs : List Byte) : (s.setRegs bs).dirty = s.dirty := rfl
@[simp] theorem setRegs_fault (bs : List Byte) : (s.setRegs bs).fault = s.fault := rfl
@[simp] theorem setRegs_mem (bs : List Byte) : (s.setRegs bs).mem = s.mem := rfl
@[simp] theorem setRegs_calls (bs : List Byte) : (s.setRegs bs).calls = s.calls := rfl
@[simp] theorem setRegs_draws (bs : List Byte) : (s.setRegs bs).draws = s.draws := rfl
@[simp] theorem setRegs_peek (bs : List Byte) (k : Nat) : (s.setRegs bs).peek k = s.peek k := rfl
@[simp] theorem setRegs_fetch (bs : List Byte) : (s.setRegs bs).fetch = s.fetch := rfl
@[simp] theorem setRegs_input (bs : List Byte) : (s.setRegs bs).input = s.input := rfl

/-! ### setIndex -/

@[simp] theorem setIndex_cfg (a : Addr) : (s.setIndex a).cfg = s.cfg := rfl
@[simp] theorem setIndex_v (a : Addr) : (s.setIndex a).v = s.v := rfl
@[simp] theorem setIndex_i (a : Addr) : (s.setIndex a).i = a := rfl
@[simp] theorem setIndex_pc (a : Addr) : (s.setIndex a).pc = s.pc := rfl
@[simp] theorem setIndex_sp (a : Addr) : (s.setIndex a).sp = s.sp := rfl
@[simp] theorem setIndex_stack (a : Addr) : (s.setIndex a).stack = s.stack := rfl
@[simp] theorem setIndex_dt (a : Addr) : (s.setIndex a).dt = s.dt := rfl
@[simp] theorem setIndex_tacc (a : Addr) : (s.setIndex a).tacc = s.tacc := rfl
@[simp] theorem setIndex_tlast (a : Addr) : (s.setIndex a).tlast = s.tlast := rfl
@[simp] theorem setIndex_fb (a : Addr) : (s.setIndex a).fb = s.fb := rfl
@[simp] theorem setIndex_dirty (a : Addr) : (s.setIndex a).dirty = s.dirty := rfl
@[simp] theorem setIndex_fault (a : Addr) : (s.setIndex a).fault = s.fault := rfl
@[simp] theorem setIndex_mem (a : Addr) : (s.setIndex a).mem = s.mem := rfl
@[simp] theorem setIndex_calls (a : Addr) : (s.setIndex a).calls = s.calls := rfl
@[simp] theorem setIndex_draws (a : Addr) : (s.setIndex a).draws = s.draws := rfl
@[simp] theorem setIndex_reg (a : Addr) (r : Nibble) : (s.setIndex a).reg r = s.reg r := rfl
@[simp] theorem setIndex_peek (a : Addr) (k : Nat) : (s.setIndex a).peek k = s.peek k := rfl
@[simp] theorem setIndex_fetch (a : Addr) : (s.setIndex a).fetch = s.fetch := rfl
@[simp] theorem setIndex_input (a : Addr) : (s.setIndex a).input = s.input := rfl

/-! ### setDelay -/

@[simp] theorem setDelay_cfg (b : Byte) : (s.setDelay b).cfg = s.cfg := rfl
@[simp] theorem setDelay_v (b : Byte) : (s.setDelay b).v = s.v := rfl
@[simp] theorem setDelay_i (b : Byte) : (s.setDelay b).i = s.i := rfl
@[simp] theorem setDelay_pc (b : Byte) : (s.setDelay b).pc = s.pc := rfl
@[simp] theorem setDelay_sp (b : Byte) : (s.setDelay b).sp = s.sp := rfl
@[simp] theorem setDelay_stack (b : Byte) : (s.setDelay b).stack = s.stack := rfl
@[simp] theorem setDelay_dt (b : Byte) : (s.setDelay b).dt = b := rfl
@[simp] theorem setDelay_tacc (b : Byte) : (s.setDelay b).tacc = s.tacc := rfl
@[simp] theorem setDelay_tlast (b : Byte) : (s.setDelay b).tlast = s.tlast := rfl
@[simp] theorem setDelay_fb (b : Byte) : (s.setDelay b).fb = s.fb := rfl
@[simp] theorem setDelay_dirty (b : Byte) : (s.setDelay b).dirty = s.dirty := rfl
@[simp] theorem setDelay_fault (b : Byte) : (s.setDelay b).fault = s.fault := rfl
@[simp] theorem setDelay_mem (b : Byte) : (s.setDelay b).mem = s.mem := rfl
@[simp] theorem setDelay_calls (b : Byte) : (s.setDelay b).calls = s.calls := rfl
@[simp] theorem setDelay_draws (b : Byte) : (s.setDelay b).draws = s.draws := rfl
@[simp] theorem setDelay_reg (b : Byte) (r : Nibble) : (s.setDelay b).reg r = s.reg r := rfl
@[simp] theorem setDelay_peek (b : Byte) (k : Nat) : (s.setDelay b).peek k = s.peek k := rfl
@[simp] theorem setDelay_fetch (b : Byte) : (s.setDelay b).fetch = s.fetch := rfl
@[simp] theorem setDelay_input (b : Byte) : (s.setDelay b).input = s.input := rfl

/-! ### setFlag -/

@[simp] theorem setFlag_cfg (b : Bool) : (s.setFlag b).cfg = s.cfg := rfl
@[simp] theorem setFlag_i (b : Bool) : (s.setFlag b).i = s.i := rfl
@[simp] theorem setFlag_pc (b : Bool) : (s.setFlag b).pc = s.pc := rfl
@[simp] theorem setFlag_sp (b : Bool) : (s.setFlag b).sp = s.sp := rfl
@[simp] theorem setFlag_stack (b : Bool) : (s.setFlag b).stack = s.stack := rfl
@[simp] theorem setFlag_dt (b : Bool) : (s.setFlag b).dt = s.dt := rfl
@[simp] theorem setFlag_tacc (b : Bool) : (s.setFlag b).tacc = s.tacc := rfl
@[simp] theorem setFlag_tlast (b : Bool) : (s.setFlag b).tlast = s.tlast := rfl
@[simp] theorem setFlag_fb (b : Bool) : (s.setFlag b).fb = s.fb := rfl
@[simp] theorem setFlag_dirty (b : Bool) : (s.setFlag b).dirty = s.dirty := rfl
@[simp] theorem setFlag_fault (b : Bool) : (s.setFlag b).fault = s.fault := rfl
@[simp] theorem setFlag_mem (b : Bool) : (s.setFlag b).mem = s.mem := rfl
@[simp] theorem setFlag_calls (b : Bool) : (s.setFlag b).calls = s.calls := rfl
@[simp] theorem setFlag_draws (b : Bool) : (s.setFlag b).draws = s.draws := rfl
@[simp] theorem setFlag_peek (b : Bool) (k : Nat) : (s.setFlag b).peek k = s.peek k := rfl
@[simp] theorem setFlag_fetch (b : Bool) : (s.setFlag b).fetch = s.fetch := rfl
@[simp] theorem setFlag_input (b : Bool) : (s.setFlag b).input = s.input := rfl

/-! ### poke -/

@[simp] theorem poke_cfg (a : Nat) (b : Byte) : (s.poke a b).cfg = s.cfg := rfl
@[simp] theorem poke_v (a : Nat) (b : Byte) : (s.poke a b).v = s.v := rfl
@[simp] theorem poke_i (a : Nat) (b : Byte) : (s.poke a b).i = s.i := rfl
@[simp] theorem poke_pc (a : Nat) (b : Byte) : (s.poke a b).pc = s.pc := rfl
@[simp] theorem poke_sp (a : Nat) (b : Byte) : (s.poke a b).sp = s.sp := rfl
@[simp] theorem poke_stack (a : Nat) (b : Byte) : (s.poke a b).stack = s.stack := rfl
@[simp] theorem poke_dt (a : Nat) (b : Byte) : (s.poke a b).dt = s.dt := rfl
@[simp] theorem poke_tacc (a : Nat) (b : Byte) : (s.poke a b).tacc = s.tacc := rfl
@[simp] theorem poke_tlast (a : Nat) (b : Byte) : (s.poke a b).tlast = s.tlast := rfl
@[simp] theorem poke_fb (a : Nat) (b : Byte) : (s.poke a b).fb = s.fb := rfl
@[simp] theorem poke_dirty (a : Nat) (b : Byte) : (s.poke a b).dirty = s.dirty := rfl
@[simp] theorem poke_fault (a : Nat) (b : Byte) : (s.poke a b).fault = s.fault := rfl
@[simp] theorem poke_mem (a : Nat) (b : Byte) : (s.poke a b).mem = s.mem.put s.cfg a b := rfl
@[simp] theorem poke_calls (a : Nat) (b : Byte) : (s.poke a b).calls = s.calls := rfl
@[simp] theorem poke_draws (a : Nat) (b : Byte) : (s.poke a b).draws = s.draws := rfl
@[simp] theorem poke_reg (a : Nat) (b : Byte) (r : Nibble) : (s.poke a b).reg r = s.reg r := rfl
@[simp] theorem poke_input (a : Nat) (b : Byte) : (s.poke a b).input = s.input := rfl

/-! ### pokes -/

@[simp] theorem pokes_cfg (a : Nat) (bs : List Byte) : (s.pokes a bs).cfg = s.cfg := rfl
@[simp] theorem pokes_v (a : Nat) (bs : List Byte) : (s.pokes a bs).v = s.v := rfl
@[simp] theorem pokes_i (a : Nat) (bs : List Byte) : (s.pokes a bs).i = s.i := rfl
@[simp] theorem pokes_pc (a : Nat) (bs : List Byte) : (s.pokes a bs).pc = s.pc := rfl
@[simp] theorem pokes_sp (a : Nat) (bs : List Byte) : (s.pokes a bs).sp = s.sp := rfl
@[simp] theorem pokes_stack (a : Nat) (bs : List Byte) : (s.pokes a bs).stack = s.stack := rfl
@[simp] theorem pokes_dt (a : Nat) (bs : List Byte) : (s.pokes a bs).dt = s.dt := rfl
@[simp] theorem pokes_tacc (a : Nat) (bs : List Byte) : (s.pokes a bs).tacc = s.tacc := rfl
@[simp] theorem pokes_tlast (a : Nat) (bs : List Byte) : (s.pokes a bs).tlast = s.tlast := rfl
@[simp] theorem pokes_fb (a : Nat) (bs : List Byte) : (s.pokes a bs).fb = s.fb := rfl
@[simp] theorem pokes_dirty (a : Nat) (bs : List Byte) : (s.pokes a bs).dirty = s.dirty := rfl
@[simp] theorem pokes_fault (a : Nat) (bs : List Byte) : (s.pokes a bs).fault = s.fault := rfl
@[simp] theorem pokes_mem (a : Nat) (bs : List Byte) : (s.pokes a bs).mem = s.mem.putAll s.cfg a bs := rfl
@[simp] theorem pokes_calls (a : Nat) (bs : List Byte) : (s.pokes a bs).calls = s.calls := rfl
@[simp] theorem pokes_draws (a : Nat) (bs : List Byte) : (s.pokes a bs).draws = s.draws := rfl
@[simp] theorem pokes_reg (a : Nat) (bs : List Byte) (r : Nibble) : (s.pokes a bs).reg r = s.reg r := rfl
@[simp] theorem pokes_input (a : Nat) (bs : List Byte) : (s.pokes a bs).input = s.input := rfl

/-! ### push -/

@[simp] theorem push_cfg (a : Word) : (s.push a).cfg = s.cfg := rfl
@[simp] theorem push_v (a : Word) : (s.push a).v = s.v := rfl
@[simp] theorem push_i (a : Word) : (s.push a).i = s.i := rfl
@[simp] theorem push_pc (a : Word) : (s.push a).pc = s.pc := rfl
@[simp] theorem push_sp (a : Word) : (s.push a).sp = s.sp + 1 := rfl
@[simp] theorem push_stack (a : Word) : (s.push a).stack = s.stack.set s.sp a := rfl
@[simp] theorem push_dt (a : Word) : (s.push a).dt = s.dt := rfl
@[simp] theorem push_tacc (a : Word) : (s.push a).tacc = s.tacc := rfl
@[simp] theorem push_tlast (a : Word) : (s.push a).tlast = s.tlast := rfl
@[simp] theorem push_fb (a : Word) : (s.push a).fb = s.fb := rfl
@[simp] theorem push_dirty (a : Word) : (s.push a).dirty = s.dirty := rfl
@[simp] theorem push_fault (a : Word) : (s.push a).fault = s.fault := rfl
@[simp] theorem push_mem (a : Word) : (s.push a).mem = s.mem := rfl
@[simp] theorem push_calls (a : Word) : (s.push a).calls = s.calls := rfl
@[simp] theorem push_draws (a : Word) : (s.push a).draws = s.draws := rfl
@[simp] theorem push_reg (a : Word) (r : Nibble) : (s.push a).reg r = s.reg r := rfl
@[simp] theorem push_peek (a : Word) (k : Nat) : (s.push a).peek k = s.peek k := rfl
@[simp] theorem push_fetch (a : Word) : (s.push a).fetch = s.fetch := rfl
@[simp] theorem push_input (a : Word) : (s.push a).input = s.input := rfl

/-! ### drop -/

@[simp] theorem drop_cfg : (s.drop).cfg = s.cfg := rfl
@[simp] theorem drop_v : (s.drop).v = s.v := rfl
@[simp] theorem drop_i : (s.drop).i = s.i := rfl
@[simp] theorem drop_pc : (s.drop).pc = s.pc := rfl
@[simp] theorem drop_sp : (s.drop).sp = s.sp - 1 := rfl
@[simp] theorem drop_stack : (s.drop).stack = s.stack.set (s.sp - 1) 0 := rfl
@[simp] theorem drop_dt : (s.drop).dt = s.dt := rfl
@[simp] theorem drop_tacc : (s.drop).tacc = s.tacc := rfl
@[simp] theorem drop_tlast : (s.drop).tlast = s.tlast := rfl
@[simp] theorem drop_fb : (s.drop).fb = s.fb := rfl
@[simp] theorem drop_dirty : (s.drop).dirty = s.dirty := rfl
@[simp] theorem drop_fault : (s.drop).fault = s.fault := rfl
@[simp] theorem drop_mem : (s.drop).mem = s.mem := rfl
@[simp] theorem drop_calls : (s.drop).calls = s.calls := rfl
@[simp] theorem drop_draws : (s.drop).draws = s.draws := rfl
@[simp] theorem drop_reg (r : Nibble) : (s.drop).reg r = s.reg r := rfl
@[simp] theorem drop_peek (k : Nat) : (s.drop).peek k = s.peek k := rfl
@[simp] theorem drop_fetch : (s.drop).fetch = s.fetch := rfl
@[simp] theorem drop_input : (s.drop).input = s.input := rfl

/-! ### touchFrame -/

@[simp] theorem touchFrame_cfg (f : Frame) : (s.touchFrame f).cfg = s.cfg := rfl
@[simp] theorem touchFrame_v (f : Frame) : (s.touchFrame f).v = s.v := rfl
@[simp] theorem touchFrame_i (f : Frame) : (s.touchFrame f).i = s.i := rfl
@[simp] theorem touchFrame_pc (f : Frame) : (s.touchFrame f).pc = s.pc := rfl
@[simp] theorem touchFrame_sp (f : Frame) : (s.touchFrame f).sp = s.sp := rfl
@[simp] theorem touchFrame_stack (f : Frame) : (s.touchFrame f).stack = s.stack := rfl
@[simp] theorem touchFrame_dt (f : Frame) : (s.touchFrame f).dt = s.dt := rfl
@[simp] theorem touchFrame_tacc (f : Frame) : (s.touchFrame f).tacc = s.tacc := rfl
@[simp] theorem touchFrame_tlast (f : Frame) : (s.touchFrame f).tlast = s.tlast := rfl
@[simp] theorem touchFrame_fb (f : Frame) : (s.touchFrame f).fb = f := rfl
@[simp] theorem touchFrame_dirty (f : Frame) : (s.touchFrame f).dirty = true := rfl
@[simp] theorem touchFrame_fault (f : Frame) : (s.touchFrame f).fault = s.fault := rfl
@[simp] theorem touchFrame_mem (f : Frame) : (s.touchFrame f).mem = s.mem := rfl
@[simp] theorem touchFrame_calls (f : Frame) : (s.touchFrame f).calls = s.calls := rfl
@[simp] theorem touchFrame_draws (f : Frame) : (s.touchFrame f).draws = s.draws := rfl
@[simp] theorem touchFrame_reg (f : Frame) (r : Nibble) : (s.touchFrame f).reg r = s.reg r := rfl
@[simp] theorem touchFrame_peek (f : Frame) (k : Nat) : (s.touchFrame f).peek k = s.peek k := rfl
@[simp] theorem touchFrame_fetch (f : Frame) : (s.touchFrame f).fetch = s.fetch := rfl
@[simp] theorem touchFrame_input (f : Frame) : (s.touchFrame f).input = s.input := rfl

/-! ### finish -/

@[simp] theorem finish_cfg (f : Flow) : (s.finish f).cfg = s.cfg := rfl
@[simp] theorem finish_v (f : Flow) : (s.finish f).v = s.v := rfl
@[simp] theorem finish_i (f : Flow) : (s.finish f).i = s.i := rfl
@[simp] theorem finish_pc (f : Flow) : (s.finish f).pc = nextPc s.pc f := rfl
@[simp] theorem finish_sp (f : Flow) : (s.finish f).sp = s.sp := rfl
@[simp] theorem finish_stack (f : Flow) : (s.finish f).stack = s.stack := rfl
@[simp] theorem finish_dt (f : Flow) : (s.finish f).dt = s.dt := rfl
@[simp] theorem finish_tacc (f : Flow) : (s.finish f).tacc = s.tacc := rfl
@[simp] theorem finish_tlast (f : Flow) : (s.finish f).tlast = s.tlast := rfl
@[simp] theorem finish_fb (f : Flow) : (s.finish f).fb = s.fb := rfl
@[simp] theorem finish_dirty (f : Flow) : (s.finish f).dirty = s.dirty := rfl
@[simp] theorem finish_fault (f : Flow) : (s.finish f).fault = s.fault := rfl
@[simp] theorem finish_mem (f : Flow) : (s.finish f).mem = s.mem := rfl
@[simp] theorem finish_calls (f : Flow) : (s.finish f).calls = s.calls := rfl
@[simp] theorem finish_draws (f : Flow) : (s.finish f).draws = s.draws := rfl
@[simp] theorem finish_reg (f : Flow) (r : Nibble) : (s.finish f).reg r = s.reg r := rfl
@[simp] theorem finish_peek (f : Flow) (k : Nat) : (s.finish f).peek k = s.peek k := rfl
@[simp] theorem finish_input (f : Flow) : (s.finish f).input = s.input := rfl

/-! ### raise -/

@[simp] theorem raise_cfg (c : Fault) (op : Word) : (s.raise c op).cfg = s.cfg := rfl
@[simp] theorem raise_v (c : Fault) (op : Word) : (s.raise c op).v = s.v := rfl
@[simp] theorem raise_i (c : Fault) (op : Word) : (s.raise c op).i = s.i := rfl
@[simp] theorem raise_pc (c : Fault) (op : Word) : (s.raise c op).pc = s.pc := rfl
@[simp] theorem raise_sp (c : Fault) (op : Word) : (s.raise c op).sp = s.sp := rfl
@[simp] theorem raise_stack (c : Fault) (op : Word) : (s.raise c op).stack = s.stack := rfl
@[simp] theorem raise_dt (c : Fault) (op : Word) : (s.raise c op).dt = s.dt := rfl
@[simp] theorem raise_tacc (c : Fault) (op : Word) : (s.raise c op).tacc = s.tacc := rfl
@[simp] theorem raise_tlast (c : Fault) (op : Word) : (s.raise c op).tlast = s.tlast := rfl
@[simp] theorem raise_fb (c : Fault) (op : Word) : (s.raise c op).fb = s.fb := rfl
@[simp] theorem raise_dirty (c : Fault) (op : Word) : (s.raise c op).dirty = s.dirty := rfl
@[simp] theorem raise_fault (c : Fault) (op : Word) : (s.raise c op).fault = some ⟨c, s.pc, op⟩ := rfl
@[simp] theorem raise_mem (c : Fault) (op : Word) : (s.raise c op).mem = s.mem := rfl
@[simp] theorem raise_calls (c : Fault) (op : Word) : (s.raise c op).calls = s.calls := rfl
@[simp] theorem raise_draws (c : Fault) (op : Word) : (s.raise c op).draws = s.draws := rfl
@[simp] theorem raise_reg (c : Fault) (op : Word) (r : Nibble) : (s.raise c op).reg r = s.reg r := rfl
@[simp] theorem raise_peek (c : Fault) (op : Word) (k : Nat) : (s.raise c op).peek k = s.peek k := rfl
@[simp] theorem raise_fetch (c : Fault) (op : Word) : (s.raise c op).fetch = s.fetch := rfl
@[simp] theorem raise_input (c : Fault) (op : Word) : (s.raise c op).input = s.input := rfl

/-! ### load -/

@[simp] theorem load_cfg (bs : List Byte) : (s.load bs).cfg = s.cfg := rfl
@[simp] theorem load_v (bs : List Byte) : (s.load bs).v = s.v := rfl
@[simp] theorem load_i (bs : List Byte) : (s.load bs).i = s.i := rfl
@[simp] theorem load_pc (bs : List Byte) : (s.load bs).pc = s.pc := rfl
@[simp] theorem load_sp (bs : List Byte) : (s.load bs).sp = s.sp := rfl
@[simp] theorem load_stack (bs : List Byte) : (s.load bs).stack = s.stack := rfl
@[simp] theorem load_dt (bs : List Byte) : (s.load bs).dt = s.dt := rfl
@[simp] theorem load_tacc (bs : List Byte) : (s.load bs).tacc = s.tacc := rfl
@[simp] theorem load_tlast (bs : List Byte) : (s.load bs).tlast = s.tlast := rfl
@[simp] theorem load_fb (bs : List Byte) : (s.load bs).fb = s.fb := rfl
@[simp] theorem load_dirty (bs : List Byte) : (s.load bs).dirty = s.dirty := rfl
@[simp] theorem load_fault (bs : List Byte) : (s.load bs).fault = s.fault := rfl
@[simp] theorem load_calls (bs : List Byte) : (s.load bs).calls = s.calls := rfl
@[simp] theorem load_draws (bs : List Byte) : (s.load bs).draws = s.draws := rfl
@[simp] theorem load_reg (bs : List Byte) (r : Nibble) : (s.load bs).reg r = s.reg r := rfl
@[simp] theorem load_input (bs : List Byte) : (s.load bs).input = s.input := rfl

/-! ### loadByte -/

@[simp] theorem loadByte_cfg (a : Addr) (b : Byte) : (s.loadByte a b).cfg = s.cfg := rfl
@[simp] theorem loadByte_v (a : Addr) (b : Byte) : (s.loadByte a b).v = s.v := rfl
@[simp] theorem loadByte_i (a : Addr) (b : Byte) : (s.loadByte a b).i = s.i := rfl
@[simp] theorem loadByte_pc (a : Addr) (b : Byte) : (s.loadByte a b).pc = s.pc := rfl
@[simp] theorem loadByte_sp (a : Addr) (b : Byte) : (s.loadByte a b).sp = s.sp := rfl
@[simp] theorem loadByte_stack (a : Addr) (b : Byte) : (s.loadByte a b).stack = s.stack := rfl
@[simp] theorem loadByte_dt (a : Addr) (b : Byte) : (s.loadByte a b).dt = s.dt := rfl
@[simp] theorem loadByte_tacc (a : Addr) (b : Byte) : (s.loadByte a b).tacc = s.tacc := rfl
@[simp] theorem loadByte_tlast (a : Addr) (b : Byte) : (s.loadByte a b).tlast = s.tlast := rfl
@[simp] theorem loadByte_fb (a : Addr) (b : Byte) : (s.loadByte a b).fb = s.fb := rfl
@[simp] theorem loadByte_dirty (a : Addr) (b : Byte) : (s.loadByte a b).dirty = s.dirty := rfl
@[simp] theorem loadByte_fault (a : Addr) (b : Byte) : (s.loadByte a b).fault = s.fault := rfl
@[simp] theorem loadByte_mem (a : Addr) (b : Byte) : (s.loadByte a b).mem = if s.cfg.progBase.toNat ≤ a.toNat then s.mem.put s.cfg a.toNat b else s.mem := rfl
@[simp] theorem loadByte_calls (a : Addr) (b : Byte) : (s.loadByte a b).calls = s.calls := rfl
@[simp] theorem loadByte_draws (a : Addr) (b : Byte) : (s.loadByte a b).draws = s.draws := rfl
@[simp] theorem loadByte_reg (a : Addr) (b : Byte) (r : Nibble) : (s.loadByte a b).reg r = s.reg r := rfl
@[simp] theorem loadByte_input (a : Addr) (b : Byte) : (s.loadByte a b).input = s.input := rfl

/-! ### resetPc -/

@[simp] theorem resetPc_cfg : (s.resetPc).cfg = s.cfg := rfl
@[simp] theorem resetPc_v : (s.resetPc).v = s.v := rfl
@[simp] theorem resetPc_i : (s.resetPc).i = s.i := rfl
@[simp] theorem resetPc_pc : (s.resetPc).pc = s.cfg.progBase.setWidth 16 := rfl
@[simp] theorem resetPc_sp : (s.resetPc).sp = 0 := rfl
@[simp] theorem resetPc_stack : (s.resetPc).stack = s.stack := rfl
@[simp] theorem resetPc_dt : (s.resetPc).dt = s.dt := rfl
@[simp] theorem resetPc_tacc : (s.resetPc).tacc = s.tacc := rfl
@[simp] theorem resetPc_tlast : (s.resetPc).tlast = s.tlast := rfl
@[simp] theorem resetPc_fb : (s.resetPc).fb = s.fb := rfl
@[simp] theorem resetPc_dirty : (s.resetPc).dirty = s.dirty := rfl
@[simp] theorem resetPc_fault : (s.resetPc).fault = s.fault := rfl
@[simp] theorem resetPc_mem : (s.resetPc).mem = s.mem := rfl
@[simp] theorem resetPc_calls : (s.resetPc).calls = s.calls := rfl
@[simp] theorem resetPc_draws : (s.resetPc).draws = s.draws := rfl
@[simp] theorem resetPc_reg (r : Nibble) : (s.resetPc).reg r = s.reg r := rfl
@[simp] theorem resetPc_peek (k : Nat) : (s.resetPc).peek k = s.peek k := rfl
@[simp] theorem resetPc_input : (s.resetPc).input = s.input := rfl

/-! ### timerUpdate -/

@[simp] theorem timerUpdate_cfg (d : Seconds) : (s.timerUpdate d).cfg = s.cfg := rfl
@[simp] theorem timerUpdate_v (d : Seconds) : (s.timerUpdate d).v = s.v := rfl
@[simp] theorem timerUpdate_i (d : Seconds) : (s.timerUpdate d).i = s.i := rfl
@[simp] theorem timerUpdate_pc (d : Seconds) : (s.timerUpdate d).pc = s.pc := rfl
@[simp] theorem timerUpdate_sp (d : Seconds) : (s.timerUpdate d).sp = s.sp := rfl
@[simp] theorem timerUpdate_stack (d : Seconds) : (s.timerUpdate d).stack = s.stack := rfl
@[simp] theorem timerUpdate_tacc (d : Seconds) : (s.timerUpdate d).tacc = s.tacc.add d := rfl
@[simp] theorem timerUpdate_fb (d : Seconds) : (s.timerUpdate d).fb = s.fb := rfl
@[simp] theorem timerUpdate_dirty (d : Seconds) : (s.timerUpdate d).dirty = s.dirty := rfl
@[simp] theorem timerUpdate_fault (d : Seconds) : (s.timerUpdate d).fault = s.fault := rfl
@[simp] theorem timerUpdate_mem (d : Seconds) : (s.timerUpdate d).mem = s.mem := rfl
@[simp] theorem timerUpdate_calls (d : Seconds) : (s.timerUpdate d).calls = s.calls := rfl
@[simp] theorem timerUpdate_draws (d : Seconds) : (s.timerUpdate d).draws = s.draws := rfl
@[simp] theorem timerUpdate_reg (d : Seconds) (r : Nibble) : (s.timerUpdate d).reg r = s.reg r := rfl
@[simp] theorem timerUpdate_peek (d : Seconds) (k : Nat) : (s.timerUpdate d).peek k = s.peek k := rfl
@[simp] theorem timerUpdate_fetch (d : Seconds) : (s.timerUpdate d).fetch = s.fetch := rfl
@[simp] theorem timerUpdate_input (d : Seconds) : (s.timerUpdate d).input = s.input := rfl

/-! ### beginTick -/

@[simp] theorem beginTick_cfg : (s.beginTick).cfg = s.cfg := rfl
@[simp] theorem beginTick_v : (s.beginTick).v = s.v := rfl
@[simp] theorem beginTick_i : (s.beginTick).i = s.i := rfl
@[simp] theorem beginTick_pc : (s.beginTick).pc = s.pc := rfl
@[simp] theorem beginTick_sp : (s.beginTick).sp = s.sp := rfl
@[simp] theorem beginTick_stack : (s.beginTick).stack = s.stack := rfl
@[simp] theorem beginTick_tacc : (s.beginTick).tacc = s.tacc.add s.input.dt := rfl
@[simp] theorem beginTick_fb : (s.beginTick).fb = s.fb := rfl
@[simp] theorem beginTick_dirty : (s.beginTick).dirty = false := rfl
@[simp] theorem beginTick_fault : (s.beginTick).fault = s.fault := rfl
@[simp] theorem beginTick_mem : (s.beginTick).mem = s.mem := rfl
@[simp] theorem beginTick_calls : (s.beginTick).calls = s.calls := rfl
@[simp] theorem beginTick_draws : (s.beginTick).draws = s.draws := rfl
@[simp] theorem beginTick_reg (r : Nibble) : (s.beginTick).reg r = s.reg r := rfl
@[simp] theorem beginTick_peek (k : Nat) : (s.beginTick).peek k = s.peek k := rfl
@[simp] theorem beginTick_fetch : (s.beginTick).fetch = s.fetch := rfl
@[simp] theorem beginTick_input : (s.beginTick).input = s.input := rfl

/-! ### endCall -/

@[simp] theorem endCall_cfg : (s.endCall).cfg = s.cfg := rfl
@[simp] theorem endCall_v : (s.endCall).v = s.v := rfl
@[simp] theorem endCall_i : (s.endCall).i = s.i := rfl
@[simp] theorem endCall_pc : (s.endCall).pc = s.pc := rfl
@[simp] theorem endCall_sp : (s.endCall).sp = s.sp := rfl
@[simp] theorem endCall_stack : (s.endCall).stack = s.stack := rfl
@[simp] theorem endCall_dt : (s.endCall).dt = s.dt := rfl
@[simp] theorem endCall_tacc : (s.endCall).tacc = s.tacc := rfl
@[simp] theorem endCall_tlast : (s.endCall).tlast = s.tlast := rfl
@[simp] theorem endCall_fb : (s.endCall).fb = s.fb := rfl
@[simp] theorem endCall_dirty : (s.endCall).dirty = s.dirty := rfl
@[simp] theorem endCall_fault : (s.endCall).fault = s.fault := rfl
@[simp] theorem endCall_mem : (s.endCall).mem = s.mem := rfl
@[simp] theorem endCall_calls : (s.endCall).calls = s.calls.tail := rfl
@[simp] theorem endCall_draws : (s.endCall).draws = s.draws + 1 := rfl
@[simp] theorem endCall_reg (r : Nibble) : (s.endCall).reg r = s.reg r := rfl
@[simp] theorem endCall_peek (k : Nat) : (s.endCall).peek k = s.peek k := rfl
@[simp] theorem endCall_fetch : (s.endCall).fetch = s.fetch := rfl

end Sys2Proof.Machine
end

