-- ==== Sys2Proof/Laws/Ops.lean ====
section
/-! SUPPORT. What each shared operation can do, said once: registers, blocks of memory, the fetch, the stack, the shift
results, the timer update. -/

namespace Sys2Proof.Machine

open Sys2Proof

/-! ### Registers -/

theorem toNat_lt_sixteen (x : Nibble) : x.toNat < 16 := x.isLt

theorem State.reg_eq (s : State) (x : Nibble) : s.reg x = s.v[x.toNat]'x.isLt := rfl

/-- Register files are equal when every register is. -/
theorem State.v_ext {s t : State} (h : ∀ r, t.reg r = s.reg r) : t.v = s.v := by
  apply Vector.ext
  intro k hk
  have := h (BitVec.ofNat 4 k)
  simp only [State.reg_eq, BitVec.toNat_ofNat, Nat.mod_eq_of_lt (show k < 2 ^ 4 from hk)] at this
  exact this

@[simp] theorem setReg_reg (s : State) (x r : Nibble) (b : Byte) :
    (s.setReg x b).reg r = if r = x then b else s.reg r := by
  simp only [State.reg, State.setReg, Vector.getElem_set]
  by_cases h : r = x
  · subst h; simp
  · rw [if_neg h, if_neg]
    intro e; exact h (BitVec.eq_of_toNat_eq e.symm)

@[simp] theorem setFlag_reg (s : State) (b : Bool) (r : Nibble) :
    (s.setFlag b).reg r = if r = 15 then flagByte b else s.reg r := setReg_reg s 15 r _

theorem loadRegs_get (bs : List Byte) : ∀ (k : Nat) (v : Vector Byte 16) (j : Nat) (hj : j < 16),
    (loadRegs k bs v)[j] = if k ≤ j then bs.getD (j - k) v[j] else v[j] := by
  induction bs with
  | nil => intro k v j hj; simp [loadRegs]
  | cons b bs ih =>
    intro k v j hj
    simp only [loadRegs]
    rw [ih]
    rcases Nat.lt_trichotomy j k with h | rfl | h
    · simp [show ¬ k + 1 ≤ j by omega, show ¬ k ≤ j by omega, show k ≠ j by omega]
    · simp
    · obtain ⟨d, rfl⟩ : ∃ d, j = k + 1 + d := ⟨j - (k + 1), by omega⟩
      simp [show k ≤ k + 1 + d by omega, show k + 1 + d - k = d + 1 by omega,
        show k ≠ k + 1 + d by omega]

/-- `V[j]` after a block load. -/
theorem setRegs_reg (s : State) (bs : List Byte) (r : Nibble) :
    (s.setRegs bs).reg r = bs.getD r.toNat (s.reg r) := by
  simp [State.reg, State.setRegs, loadRegs_get]

/-! ### Memory -/

/-- The addresses of memory's cells rise: all that a read after a write needs. -/
abbrev State.Sorted (s : State) : Prop := s.mem.Pairwise fun p q => p.1 < q.1

theorem poke_peek {s : State} (h : s.Sorted) (a k : Nat) (b : Byte) :
    (s.poke a b).peek k = if k = a then b else s.peek k := Memory.get_put s.cfg s.mem a k b h

theorem pokes_peek {s : State} (h : s.Sorted) (a k : Nat) (bs : List Byte) :
    (s.pokes a bs).peek k = if a ≤ k then bs.getD (k - a) (s.peek k) else s.peek k :=
  Memory.get_putAll s.cfg bs s.mem a k h

/-- `MemRead` (R51): it answers exactly inside memory. -/
theorem memRead_eq_some {s : State} {a : Nat} {b : Byte} : s.memRead a = some b ↔ a < memSize ∧ s.peek a = b := by
  unfold State.memRead; split <;> simp_all

/-- `MemWrite` (R52): it answers exactly inside memory, with one byte changed. -/
theorem memWrite_eq_some {s t : State} {a : Nat} {b : Byte} : s.memWrite a b = some t ↔ a < memSize ∧ s.poke a b = t := by
  unfold State.memWrite; split <;> simp_all

theorem readBlock_eq_some {s : State} {a len : Nat} {bs : List Byte} :
    s.readBlock a len = some bs ↔ inMemory a len ∧ (List.range len).map (fun k => s.peek (a + k)) = bs := by
  unfold State.readBlock; split <;> simp_all

theorem readBlock_eq_none {s : State} {a len : Nat} : s.readBlock a len = none ↔ memSize < a + len := by
  unfold State.readBlock inMemory; split <;> simp_all

/-- Every byte of a block that was read. -/
theorem readBlock_get {s : State} {a len : Nat} {bs : List Byte} (h : s.readBlock a len = some bs) (j : Nat) (d : Byte) :
    bs.getD j d = if j < len then s.peek (a + j) else d := by
  obtain ⟨-, rfl⟩ := readBlock_eq_some.1 h
  by_cases hj : j < len <;> simp [hj]

theorem writeBlock_eq_some {s t : State} {a : Nat} {bs : List Byte} :
    s.writeBlock a bs = some t ↔ inMemory a bs.length ∧ s.pokes a bs = t := by
  unfold State.writeBlock; split <;> simp_all

theorem writeBlock_eq_none {s : State} {a : Nat} {bs : List Byte} :
    s.writeBlock a bs = none ↔ memSize < a + bs.length := by
  unfold State.writeBlock inMemory; split <;> simp_all

/-- A block write inside memory keeps memory's canonical form. -/
theorem writeBlock_wf {s t : State} {a : Nat} {bs : List Byte} (h : s.writeBlock a bs = some t)
    (hm : Memory.wf s.cfg s.mem) : Memory.wf t.cfg t.mem := by
  obtain ⟨hb, rfl⟩ := writeBlock_eq_some.1 h
  exact Memory.putAll_wf bs a hm hb

/-- One byte written inside memory keeps memory's canonical form. -/
theorem memWrite_wf {s t : State} {a : Nat} {b : Byte} (h : s.memWrite a b = some t)
    (hm : Memory.wf s.cfg s.mem) : Memory.wf t.cfg t.mem := by
  obtain ⟨hb, rfl⟩ := memWrite_eq_some.1 h
  exact Memory.put_wf hm a b hb

/-- Load keeps memory's canonical form. -/
theorem load_wf {s : State} (bs : List Byte) (hm : Memory.wf s.cfg s.mem) :
    Memory.wf (s.load bs).cfg (s.load bs).mem := by
  refine Memory.putAll_wf _ _ hm ?_
  have : s.cfg.progBase.toNat < 4096 := s.cfg.progBase.isLt
  simp only [List.length_take, memSize]; omega

/-- A write of the load port: one byte, and only from PROG_BASE upward. -/
theorem loadByte_peek {s : State} (h : s.Sorted) (a : Addr) (b : Byte) (k : Nat) :
    (s.loadByte a b).peek k = if s.cfg.progBase.toNat ≤ a.toNat ∧ k = a.toNat then b else s.peek k := by
  unfold State.peek State.loadByte
  by_cases hb : s.cfg.progBase.toNat ≤ a.toNat
  · simp only [hb, if_true, true_and]; exact Memory.get_put s.cfg s.mem a.toNat k b h
  · simp [hb]

/-- A write of the load port keeps memory's canonical form. -/
theorem loadByte_wf {s : State} (a : Addr) (b : Byte) (hm : Memory.wf s.cfg s.mem) :
    Memory.wf (s.loadByte a b).cfg (s.loadByte a b).mem := by
  simp only [State.loadByte]
  split
  · exact Memory.put_wf hm a.toNat b a.isLt
  · exact hm

/-- Memory right after construction has the canonical form. -/
theorem construct_memWf (c : Config) : Memory.wf (State.construct c).cfg (State.construct c).mem := by
  simp [State.construct, Memory.wf]

theorem fetch_eq_some {s : State} {op : Word} : s.fetch = some op ↔
    s.pc.toNat + 1 < memSize ∧ wordOfBytes (s.peek s.pc.toNat) (s.peek (s.pc.toNat + 1)) = op := by
  unfold State.fetch; split <;> simp_all

theorem fetch_eq_none {s : State} : s.fetch = none ↔ memSize ≤ s.pc.toNat + 1 := by
  unfold State.fetch; split <;> simp_all

/-! ### Results of operands -/

/-- A shift answers unless the amount is 8 or more and the configuration refuses it. -/
theorem shiftResult_eq_none {w : ShiftWide} {f : Nat → Byte} {k : Nat} :
    shiftResult w f k = none ↔ w = .refuse ∧ 8 ≤ k := by
  unfold shiftResult wideShift
  split
  · simp; omega
  · cases w <;> simp; omega

theorem bcdDigits_length (b : Byte) : (bcdDigits b).length = 3 := rfl

/-- The three digits are those of the number. -/
theorem bcdDigits_toNat (b : Byte) :
    (bcdDigits b).map BitVec.toNat = [b.toNat / 100, b.toNat / 10 % 10, b.toNat % 10] := by
  have := b.isLt
  simp only [bcdDigits, List.map_cons, List.map_nil, BitVec.toNat_ofNat, List.cons.injEq, and_true]
  exact ⟨Nat.mod_eq_of_lt (by omega), Nat.mod_eq_of_lt (by omega), Nat.mod_eq_of_lt (by omega)⟩

/-- No glyph address is cut to 12 bits (R151). -/
theorem glyphAddr_toNat (b : Byte) : (glyphAddr b).toNat = 5 * b.toNat := by
  have := b.isLt
  simp only [glyphAddr, glyphBytes, BitVec.toNat_ofNat]
  exact Nat.mod_eq_of_lt (by omega)

/-! ### The timer -/

/-- The delay timer falls by one or stays (R187: never below 0). -/
theorem timerUpdate_dt (s : State) (d : Seconds) :
    (s.timerUpdate d).dt = if s.dt ≠ 0 ∧ s.timerFires (s.tacc.add d) = true then s.dt - 1 else s.dt := by
  simp [State.timerUpdate]

theorem Seconds.add_val (a b : Seconds) : (a.add b).val = a.val + b.val := rfl

theorem t60_val : t60.val = 1 / 60 := by
  simp [t60, Seconds.frac, Rat.mkRat_eq_div]

/-- The mark of the last decrement is never in the future. -/
theorem timerUpdate_mark {s : State} (h : s.tlast.le s.tacc) (d : Seconds) :
    (s.timerUpdate d).tlast.le (s.timerUpdate d).tacc := by
  have hd := d.nonneg
  simp only [State.timerUpdate, Seconds.le] at *
  split
  · exact le_refl _
  · rw [Seconds.add_val]; linarith

end Sys2Proof.Machine
end

