-- ==== Sys2Proof/Laws/Exec.lean ====
section
/-! SUPPORT. Inversion of the instructions and of the step: if it answers a next state, one of these cases holds. Every
later proof about `exec` or `step` cites these and unfolds neither. -/

namespace Sys2Proof.Machine

open Sys2Proof

variable {s t : State}

/-! ### Instructions with more than one outcome -/

theorem execRet_cases (h : execRet s = .next t) :
    (s.sp = 0 ∧ t = s.raise .stackUnderflow (encode .ret)) ∨ (s.sp ≠ 0 ∧ t = s.drop.finish (.jump s.top)) := by
  unfold execRet at h; split at h <;> simp_all

theorem execCall_cases {addr : Addr} (h : execCall addr s = .next t) :
    (s.cfg.stackDepth ≤ s.sp ∧ t = s.raise .stackOverflow (encode (.call addr))) ∨
    (s.sp < s.cfg.stackDepth ∧ t = (s.push (s.pc + 2)).finish (.jump (addr.setWidth 16))) := by
  unfold execCall at h; split at h <;> simp_all

theorem execSknp_cases {x : Nibble} (h : execSknp x s = .next t) :
    (15 < (s.reg x).toNat ∧ t = s.raise .keypadIndexOutOfRange (encode (.sknp x))) ∨
    ((s.reg x).toNat ≤ 15 ∧ t = s.finish (if s.key (s.reg x).toNat then .next else .skip)) := by
  unfold execSknp at h; split at h <;> simp_all

theorem execDrw_cases {x y n : Nibble} (h : execDrw x y n s = .next t) :
    namesVf x y = false ∧
    ((memSize < s.i.toNat + n.toNat ∧ t = s.raise .memoryOutOfBounds (encode (.drw x y n))) ∨
     ∃ rows, s.readBlock s.i.toNat n.toNat = some rows ∧
      t = ((s.touchFrame (drawSprite (s.reg x).toNat (s.reg y).toNat rows s.fb).1).setFlag
        (drawSprite (s.reg x).toNat (s.reg y).toNat rows s.fb).2).finish .next) := by
  unfold execDrw at h
  split at h
  · cases h
  · rename_i hv
    refine ⟨by simpa using hv, ?_⟩
    split at h
    · rename_i e; exact .inl ⟨readBlock_eq_none.1 e, by injection h with h; exact h.symm⟩
    · rename_i rows e; exact .inr ⟨rows, e, by injection h with h; exact h.symm⟩

/-- What SHL and SHR share. -/
theorem shiftInto_cases {x y : Nibble} {f : Nat → Byte} {b : Bool} (h : shiftInto x y f b s = .next t) :
    namesVf x y = false ∧ ∃ r, shiftResult s.cfg.shiftWide f (s.shiftAmount x y) = some r ∧
      t = ((s.setReg x r).setFlag b).finish .next := by
  unfold shiftInto at h
  split at h
  · cases h
  · rename_i hv
    refine ⟨by simpa using hv, ?_⟩
    split at h
    · cases h
    · rename_i r e; exact ⟨r, e, by injection h with h; exact h.symm⟩

theorem execLdB_cases {x : Nibble} (h : execLdB x s = .next t) :
    (memSize < s.i.toNat + 3 ∧ t = s.raise .memoryOutOfBounds (encode (.ldB x))) ∨
    (s.i.toNat + 3 ≤ memSize ∧ t = (s.pokes s.i.toNat (bcdDigits (s.reg x))).finish .next) := by
  unfold execLdB at h
  split at h
  · rename_i e; exact .inl ⟨writeBlock_eq_none.1 e, by injection h with h; exact h.symm⟩
  · rename_i u e
    obtain ⟨hb, rfl⟩ := writeBlock_eq_some.1 e
    exact .inr ⟨hb, by injection h with h; exact h.symm⟩

theorem execLdVxI_cases {x : Nibble} (h : execLdVxI x s = .next t) :
    (memSize < s.i.toNat + (x.toNat + 1) ∧ t = s.raise .memoryOutOfBounds (encode (.ldVxI x))) ∨
    ∃ bs, s.readBlock s.i.toNat (x.toNat + 1) = some bs ∧ t = (s.setRegs bs).finish .next := by
  unfold execLdVxI at h
  split at h
  · rename_i e; exact .inl ⟨readBlock_eq_none.1 e, by injection h with h; exact h.symm⟩
  · rename_i bs e; exact .inr ⟨bs, e, by injection h with h; exact h.symm⟩

/-! ### The step -/

/-- The cases of one step that answers a next state. -/
inductive StepCase (s t : State) : Prop where
  | load (bytes : List Byte) (rest : List DriverCall) (call : s.calls = .load bytes :: rest)
      (result : t = (s.load bytes).endCall)
  | loadByte (a : Addr) (b : Byte) (rest : List DriverCall) (call : s.calls = .loadByte a b :: rest)
      (result : t = (s.loadByte a b).endCall)
  | reset (rest : List DriverCall) (call : s.calls = .reset :: rest) (result : t = s.resetPc.endCall)
  | timerUpdate (dt : Seconds) (rest : List DriverCall) (call : s.calls = .timerUpdate dt :: rest)
      (result : t = (s.timerUpdate dt).endCall)
  | halted (call : s.nextIsTick = true) (isHalted : s.halted = true) (result : t = s.endCall)
  | fetchFault (call : s.nextIsTick = true) (running : s.fault = none) (fetched : s.fetch = none)
      (result : t = (s.beginTick.raise .fetchOutOfBounds 0).endCall)
  | unknown (op : Word) (call : s.nextIsTick = true) (running : s.fault = none) (fetched : s.fetch = some op)
      (decoded : decode op = none) (result : t = (s.beginTick.raise .unknownOpcode op).endCall)
  | run (op : Word) (i : Instr) (u : State) (call : s.nextIsTick = true) (running : s.fault = none)
      (fetched : s.fetch = some op) (decoded : decode op = some i) (executed : exec i s.beginTick = .next u)
      (result : t = u.endCall)

/-- A tick that the driver has asked for, or that no pending call replaces. -/
theorem step_of_tick (h : s.nextIsTick = true) : step s = tick s := by
  unfold State.nextIsTick at h
  unfold step nextCall
  split <;> simp_all [DriverCall.isTick]

theorem endOutcome_next {r : Result} (h : endOutcome r = .next t) : ∃ u, r = .next u ∧ t = u.endCall := by
  cases r with
  | next u => exact ⟨u, rfl, by injection h with h; exact h.symm⟩
  | fault _ => cases h
  | refused _ => cases h

theorem tick_cases (call : s.nextIsTick = true) (h : tick s = .next t) : StepCase s t := by
  unfold tick at h
  split at h
  · exact .halted call ‹_› (by injection h with h; exact h.symm)
  · have running : s.fault = none := by
      cases e : s.fault with
      | none => rfl
      | some r => exact absurd (by simp [State.halted, e]) ‹¬ s.halted = true›
    obtain ⟨u, hu, rfl⟩ := endOutcome_next h
    unfold fetchAndRun at hu
    rw [beginTick_fetch] at hu
    split at hu
    · injection hu with hu; subst hu; exact .fetchFault call running ‹_› rfl
    · split at hu
      · injection hu with hu; subst hu; exact .unknown _ call running ‹_› ‹_› rfl
      · exact .run _ _ _ call running ‹_› ‹_› hu rfl

/-- Inversion of the step. -/
theorem step_cases (h : step s = .next t) : StepCase s t := by
  unfold step nextCall at h
  split at h
  · injection h with h; exact .load _ _ ‹_› h.symm
  · injection h with h; exact .loadByte _ _ _ ‹_› h.symm
  · injection h with h; exact .reset _ ‹_› h.symm
  · injection h with h; exact .timerUpdate _ _ ‹_› h.symm
  · exact tick_cases (by simp [State.nextIsTick, DriverCall.isTick, *]) h
  · exact tick_cases (by simp [State.nextIsTick, *]) h

end Sys2Proof.Machine
end

