-- ==== Sys2Proof/Laws/PerInstr.lean ====
section
/-! SUPPORT. Per-instruction facts about the instructions as syntax. Family `WordOfRow`: every instruction is well formed,
is two bytes long (30_encoding.md R80), and its word matches the mask and pattern of its own row of the opcode map (R85). -/

namespace Sys2Proof.Laws.WordOfRow

open Sys2Proof

/-- The place of an instruction's row in the opcode map (R85, counted from 0). -/
def rowOf : Instr → Nat
  | .cls => 0
  | .ret => 1
  | .jp _ => 2
  | .call _ => 3
  | .se _ _ => 4
  | .ldImm _ _ => 5
  | .addImm _ _ => 6
  | .shl _ _ => 7
  | .shr _ _ => 8
  | .ldI _ => 9
  | .drw _ _ _ => 10
  | .sknp _ => 11
  | .rnd _ _ => 12
  | .ldVxDt _ => 13
  | .ldDtVx _ => 14
  | .ldF _ => 15
  | .ldB _ => 16
  | .ldVxI _ => 17

/-- The family's statement. -/
def Statement (i : Instr) : Prop :=
  i.wf = true ∧ (encodeBytes i).length = 2 ∧
    (opcodeTable[rowOf i]?.map fun r => r.matches (encode i)) = some true

theorem and_nnn (n0 : Nibble) (addr : Addr) : encodeNnn n0 addr &&& (0xF#4 ++ 0x000#12) = n0 ++ 0x000#12 := by
  rw [encodeNnn, BitVec.and_append]; congr 1
  · exact BitVec.and_allOnes
  · exact BitVec.and_zero

theorem and_xkk (n0 x : Nibble) (kk m : Byte) :
    encodeXkk n0 x kk &&& (0xF#4 ++ 0x0#4 ++ m) = n0 ++ 0x0#4 ++ (kk &&& m) := by
  rw [encodeXkk, BitVec.and_append, BitVec.and_append]; congr 2
  · exact BitVec.and_allOnes
  · exact BitVec.and_zero

theorem and_xyn (n0 x y n m : Nibble) :
    encodeXyn n0 x y n &&& (0xF#4 ++ 0x0#4 ++ 0x0#4 ++ m) = n0 ++ 0x0#4 ++ 0x0#4 ++ (n &&& m) := by
  rw [encodeXyn, BitVec.and_append, BitVec.and_append, BitVec.and_append]; congr 3
  · exact BitVec.and_allOnes
  · exact BitVec.and_zero
  · exact BitVec.and_zero

theorem of_word {i : Instr} {r : OpcodeRow} (hw : i.wf = true) (hr : opcodeTable[rowOf i]? = some r)
    (h : encode i &&& r.mask = r.pattern) : Statement i :=
  ⟨hw, rfl, by rw [hr]; simp [OpcodeRow.matches, h]⟩

theorem cls : Statement .cls := of_word rfl rfl (by decide)
theorem ret : Statement .ret := of_word rfl rfl (by decide)
theorem jp (addr : Addr) : Statement (.jp addr) := of_word rfl rfl (and_nnn _ addr)
theorem call (addr : Addr) : Statement (.call addr) := of_word rfl rfl (and_nnn _ addr)
theorem se (x : Nibble) (kk : Byte) : Statement (.se x kk) := of_word rfl rfl ((and_xkk _ x kk 0#8).trans (by rw [BitVec.and_zero]; rfl))
theorem ldImm (x : Nibble) (kk : Byte) : Statement (.ldImm x kk) := of_word rfl rfl ((and_xkk _ x kk 0#8).trans (by rw [BitVec.and_zero]; rfl))
theorem addImm (x : Nibble) (kk : Byte) : Statement (.addImm x kk) := of_word rfl rfl ((and_xkk _ x kk 0#8).trans (by rw [BitVec.and_zero]; rfl))
theorem shl (x y : Nibble) : Statement (.shl x y) := of_word rfl rfl (and_xyn _ x y _ 0xF)
theorem shr (x y : Nibble) : Statement (.shr x y) := of_word rfl rfl (and_xyn _ x y _ 0xF)
theorem ldI (addr : Addr) : Statement (.ldI addr) := of_word rfl rfl (and_nnn _ addr)
theorem drw (x y n : Nibble) : Statement (.drw x y n) := of_word rfl rfl ((and_xyn _ x y n 0#4).trans (by rw [BitVec.and_zero]; rfl))
theorem sknp (x : Nibble) : Statement (.sknp x) := of_word rfl rfl (and_xkk _ x _ 0xFF)
theorem rnd (x : Nibble) (kk : Byte) : Statement (.rnd x kk) := of_word rfl rfl ((and_xkk _ x kk 0#8).trans (by rw [BitVec.and_zero]; rfl))
theorem ldVxDt (x : Nibble) : Statement (.ldVxDt x) := of_word rfl rfl (and_xkk _ x _ 0xFF)
theorem ldDtVx (x : Nibble) : Statement (.ldDtVx x) := of_word rfl rfl (and_xkk _ x _ 0xFF)
theorem ldF (x : Nibble) : Statement (.ldF x) := of_word rfl rfl (and_xkk _ x _ 0xFF)
theorem ldB (x : Nibble) : Statement (.ldB x) := of_word rfl rfl (and_xkk _ x _ 0xFF)
theorem ldVxI (x : Nibble) : Statement (.ldVxI x) := of_word rfl rfl (and_xkk _ x _ 0xFF)

end Sys2Proof.Laws.WordOfRow
end

