-- ==== Sys2Proof/Machine/Asm.lean ====
section
/-! DEFINITION. The assembler of 30_encoding.md R90 and R91: the name of each row with its operands as text, the one
directive DB, and the bytes of a list of lines. Names only: the word is the ground truth (R90, D25). -/

namespace Sys2Proof.Machine

open Sys2Proof

/-- A hexadecimal digit. -/
def hexDigit (n : Nat) : Char := ("0123456789ABCDEF".toList)[n % 16]?.getD '0'

/-- The low `digits` hexadecimal digits of a number, most significant first. -/
def hexDigits (n : Nat) : Nat → List Char
  | 0 => []
  | d + 1 => hexDigits (n / 16) d ++ [hexDigit n]

/-- A number operand, hexadecimal with `0x`. -/
def hexText (digits n : Nat) : String := "0x" ++ String.ofList (hexDigits n digits)

/-- `V0` to `VF`. -/
def regText (x : Nibble) : String := "V" ++ String.ofList [hexDigit x.toNat]

/-- The text of an instruction (R90). -/
def instrText : Instr → String
  | .cls => "CLS"
  | .ret => "RET"
  | .jp addr => "JP " ++ hexText 3 addr.toNat
  | .call addr => "CALL " ++ hexText 3 addr.toNat
  | .se x kk => "SE " ++ regText x ++ ", " ++ hexText 2 kk.toNat
  | .ldImm x kk => "LD " ++ regText x ++ ", " ++ hexText 2 kk.toNat
  | .addImm x kk => "ADD " ++ regText x ++ ", " ++ hexText 2 kk.toNat
  | .shl x y => "SHL " ++ regText x ++ ", " ++ regText y
  | .shr x y => "SHR " ++ regText x ++ ", " ++ regText y
  | .ldI addr => "LD I, " ++ hexText 3 addr.toNat
  | .drw x y n => "DRW " ++ regText x ++ ", " ++ regText y ++ ", " ++ hexText 1 n.toNat
  | .sknp x => "SKNP " ++ regText x
  | .rnd x kk => "RND " ++ regText x ++ ", " ++ hexText 2 kk.toNat
  | .ldVxDt x => "LD " ++ regText x ++ ", DT"
  | .ldDtVx x => "LD DT, " ++ regText x
  | .ldF x => "LD F, " ++ regText x
  | .ldB x => "LD B, " ++ regText x
  | .ldVxI x => "LD " ++ regText x ++ ", [I]"

/-- A line of a program: an instruction, or `DB b0, b1, ...` (R91). -/
inductive AsmLine where
  | instr (i : Instr)
  | db (bytes : List Byte)
  deriving DecidableEq, Repr

/-- The bytes of a line. -/
def AsmLine.bytes : AsmLine → List Byte
  | .instr i => encodeBytes i
  | .db bs => bs

/-- The image of a program, for Load. -/
def assemble (lines : List AsmLine) : List Byte := lines.flatMap AsmLine.bytes

end Sys2Proof.Machine
end

