-- ==== Sys2Proof/Tests/Slice0.lean ====
section
/-! SUPPORT. Tests on fixed values: the expected results are those of 95_test_vectors.md (the part is named at each
group), none is the model's own answer. The witnesses at the end show, for every statement with hypotheses, a state and
operands that meet them. -/

namespace Sys2Proof.Tests

open Sys2Proof Sys2Proof.Machine

/-! ### Helpers -/

/-- A tick in which no time passes and no key is pressed. -/
def quiet : TickInput := { dt := Seconds.zero, key := Vector.replicate 16 false, rnd := 0xB7 }

/-- The core after reset, with an instruction word to run next and one tick pending. -/
def core (op : Word) : State := { State.reset.withFetchWord 16 op.toNat with calls := [.tick quiet] }

/-- A core whose V1 and V2 hold these. -/
def pair (a b : Byte) : State := (State.reset.setReg 1 a).setReg 2 b

/-- The same under a setting of ShiftWide. -/
def wide (w : ShiftWide) (a b : Byte) : State := { pair a b with cfg := { defaultConfig with shiftWide := w } }

/-- A core halted on an unknown opcode, with one tick pending. -/
def haltedCore : State := { core 0 with fault := some ⟨.unknownOpcode, 0x200, 0⟩ }

/-- A core with a timer value, an elapsed time of `n / d`, and a timer rule. -/
def timed (b : Byte) (n d : Nat) (r : TimerRule) : State :=
  { State.reset with dt := b, tacc := Seconds.frac n d, cfg := { defaultConfig with timerRule := r } }

/-- A view of the state that an instruction leaves. -/
def after {α : Type} (i : Instr) (s : State) (f : State → α) : Option α := (nextState (exec i s)).map f

/-- A view of the state that a step leaves. -/
def afterStep {α : Type} (s : State) (f : State → α) : Option α := (nextState (step s)).map f

/-- The cause recorded in FAULT. -/
def cause (s : State) : Option Fault := s.fault.map fun r => r.cause

/-! ### WellFormed: one ill-formed term for each check, refused -/

theorem test_wf_default : defaultConfig.wf = true := by decide
theorem test_wf_no_stack : ({ defaultConfig with stackDepth := 0 }).wf = false := by decide
theorem test_wf_base_in_font : ({ defaultConfig with progBase := 79 }).wf = false := by decide
theorem test_wf_boundary : ({ defaultConfig with progBase := 80, stackDepth := 1 }).wf = true := by decide
theorem test_wf_instr : Instr.wf (.shr 15 15) = true := by decide

/-! ### Decode: the words of 2.1 -/

theorem test_decode_display : decode 0x00E0 = some .cls ∧ decode 0xD01F = some (.drw 0 1 15) ∧
    decode 0xD5A3 = some (.drw 5 0xA 3) := by decide
theorem test_decode_control : decode 0x00EE = some .ret ∧ decode 0x1ABC = some (.jp 0xABC) ∧
    decode 0x2F00 = some (.call 0xF00) ∧ decode 0x3A7F = some (.se 0xA 0x7F) ∧ decode 0xE1A1 = some (.sknp 1) := by
  decide
theorem test_decode_registers : decode 0x6C01 = some (.ldImm 0xC 0x01) ∧ decode 0x7FFF = some (.addImm 0xF 0xFF) ∧
    decode 0x812E = some (.shl 1 2) ∧ decode 0x8126 = some (.shr 1 2) ∧ decode 0x8AAE = some (.shl 0xA 0xA) ∧
    decode 0x8FF6 = some (.shr 15 15) ∧ decode 0xC0FF = some (.rnd 0 0xFF) := by decide
theorem test_decode_index : decode 0xA123 = some (.ldI 0x123) ∧ decode 0xF229 = some (.ldF 2) ∧
    decode 0xF333 = some (.ldB 3) ∧ decode 0xF465 = some (.ldVxI 4) := by decide
theorem test_decode_timer : decode 0xF007 = some (.ldVxDt 0) ∧ decode 0xF115 = some (.ldDtVx 1) := by decide
theorem test_decode_illegal : ([0x0000, 0x00E1, 0x00FE, 0x0123, 0x00EF, 0x4A7F, 0x5120, 0x8120, 0x8121, 0x8124, 0x8125,
    0x8127, 0x812F, 0x9120, 0xB123, 0xE19E, 0xE1A0, 0xE0A2, 0xF00A, 0xF018, 0xF11E, 0xF455, 0xF075, 0xF000,
    0xFFFF] : List Word).all (fun w => decode w == none) = true := by decide
theorem test_encode : encode (.drw 5 10 3) = 0xD5A3 ∧ encodeBytes (.drw 5 10 3) = [0xD5, 0xA3] := by decide
theorem test_table_word : decodeTableWord 16 0xA312 = some (.ldI 0x312) ∧ decodeTableWord 16 0 = none := by decide

/-! ### One instruction each (2.3 to 2.7) -/

theorem test_cls : after .cls ({ State.reset with fb := Frame.blank.put 5 5 true }.setReg 15 1)
    (fun t => (t.fb.pixel 5 5, t.reg 15, t.dirty, t.pc)) = some (false, 1, true, 0x202) := by decide

/-- A row of two 1 bits at the origin over one lit pixel. -/
theorem test_drw_collision :
    after (.drw 0 1 1) (({ State.reset with fb := Frame.blank.put 0 0 true, i := 0x300 }).poke 0x300 0xC0)
      (fun t => (t.fb.pixel 0 0, t.fb.pixel 0 1, t.fb.pixel 0 2, t.reg 15)) = some (false, true, false, 1) := by
  decide +kernel

/-- Clipped at the right edge, not wrapped: columns 64 to 67 are dropped. -/
theorem test_drw_clips :
    after (.drw 0 1 1) (({ State.reset with i := 0x300 }.setReg 0 60).poke 0x300 0xFF)
      (fun t => ((List.range 64).filter fun xx => t.fb.pixel 0 xx, t.reg 15, t.dirty)) =
      some ([60, 61, 62, 63], 0, true) := by decide +kernel

theorem test_ret : after .ret { State.reset with sp := 2, stack := [0x0206, 0x0302], pc := 0x20C }
    (fun t => (t.sp, t.stack, t.pc)) = some (1, [0x0206, 0], 0x302) := by decide
theorem test_ret_underflow : after .ret State.reset (fun t => (t.fault, t.sp, t.pc)) =
    some (some ⟨.stackUnderflow, 0x200, 0x00EE⟩, 0, 0x200) := by decide
theorem test_jp_odd : after (.jp 0x201) { State.reset with pc := 0x300 } (fun t => t.pc) = some 0x201 := by decide
theorem test_call_at_top : after (.call 0x300) { State.reset with pc := 0xFFE }
    (fun t => (t.stack.head?, t.sp, t.pc)) = some (some 0x1000, 1, 0x300) := by decide
theorem test_call_overflow : after (.call 0x500) { State.reset with pc := 0x400, sp := 16 }
    (fun t => (t.fault, t.sp, t.stack, t.pc)) =
      some (some ⟨.stackOverflow, 0x400, 0x2500⟩, 16, List.replicate 16 0, 0x400) := by decide
theorem test_se_vf : after (.se 15 1) (State.reset.setReg 15 1) (fun t => t.pc) = some 0x204 := by decide
theorem test_se_not : after (.se 3 0x80) (State.reset.setReg 3 0x7F) (fun t => t.pc) = some 0x202 := by decide

/-- Key 0 pressed, key 1 not (S8). -/
theorem test_sknp : [0, 1].map (fun b => after (.sknp 3)
    ({ State.reset with calls := [.tick { quiet with key := quiet.key.set 0 true }] }.setReg 3 b) (fun t => t.pc)) =
      [some 0x202, some 0x204] := by decide
theorem test_sknp_range : after (.sknp 2) (State.reset.setReg 2 0x10) (fun t => (t.fault, t.pc)) =
    some (some ⟨.keypadIndexOutOfRange, 0x200, 0xE2A1⟩, 0x200) := by decide
theorem test_ldImm_vf : after (.ldImm 15 0x12) State.reset (fun t => (t.reg 15, t.pc)) = some (0x12, 0x202) := by decide
theorem test_addImm_no_carry : after (.addImm 1 0x20) (pair 0xF0 0) (fun t => (t.reg 1, t.reg 15)) = some (0x10, 0) := by
  decide
theorem test_shl_flag_is_msb_before : after (.shl 1 2) (pair 0x41 2) (fun t => (t.reg 1, t.reg 15)) = some (0x04, 0) := by
  decide
theorem test_shl_wide : [ShiftWide.zero, ShiftWide.mod8].map
    (fun w => after (.shl 1 2) (wide w 0xFF 0xFF) (fun t => (t.reg 1, t.reg 15))) =
      [some (0x00, 1), some (0x80, 1)] := by decide
theorem test_shr_logical : after (.shr 1 2) (pair 0x80 7) (fun t => (t.reg 1, t.reg 15)) = some (0x01, 0) := by decide
theorem test_shr_same_register : after (.shr 1 1) (pair 0x03 0) (fun t => (t.reg 1, t.reg 15)) = some (0x01, 1) := by
  decide
theorem test_rnd : after (.rnd 3 0x0F) (core 0xC30F) (fun t => t.reg 3) = some 0x07 := by decide
theorem test_ldI : after (.ldI 0xFFF) State.reset (fun t => t.i) = some 0xFFF := by decide
theorem test_ldF_not_masked : after (.ldF 0) (State.reset.setReg 0 0x10) (fun t => t.i) = some 0x050 := by decide
theorem test_ldF_top : after (.ldF 0) (State.reset.setReg 0 0xFF) (fun t => t.i) = some 0x4FB := by decide

/-- Over the font: glyph 0 is overwritten. -/
theorem test_ldB_font : after (.ldB 0) (State.reset.setReg 0 123)
    (fun t => (t.peek 0, t.peek 1, t.peek 2, t.peek 3)) = some (1, 2, 3, 0x90) := by decide
theorem test_ldB_top : [0xFFD, 0xFFE].map (fun a => after (.ldB 0) ({ State.reset with i := a }.setReg 0 145)
    (fun t => (t.peek 0xFFD, t.peek 0xFFE, t.peek 0xFFF, cause t))) =
      [some (1, 4, 5, none), some (0, 0, 0, some .memoryOutOfBounds)] := by decide +kernel

/-- Glyph 0, at I = 0 after construction. -/
theorem test_ldVxI_glyph : after (.ldVxI 4) State.reset (fun t => [t.reg 0, t.reg 1, t.reg 2, t.reg 3, t.reg 4, t.reg 5])
    = some [0xF0, 0x90, 0x90, 0x90, 0xF0, 0] := by decide
theorem test_ldVxI_top : [0xFF0, 0xFF1].map (fun a => after (.ldVxI 15) ({ State.reset with i := a }.setReg 0 9)
    (fun t => (t.reg 0, cause t))) = [some (0, none), some (9, some .memoryOutOfBounds)] := by decide +kernel

/-- 2.7, within a tick: the value read is the decremented one. -/
theorem test_ldVxDt_tick : afterStep { core 0xF107 with tacc := Seconds.frac 1 1, dt := 5 }
    (fun t => (t.dt, t.reg 1)) = some (4, 4) := by decide +kernel

/-- 2.7, within a tick: the value written is not decremented. -/
theorem test_ldDtVx_tick : afterStep ({ core 0xF015 with tacc := Seconds.frac 1 1 }.setReg 0 60)
    (fun t => t.dt) = some 60 := by decide +kernel

/-! ### The tick, the faults, the driver's calls (2.1, 2.7 to 2.9) -/

theorem test_fetch_odd : ({ (State.reset.poke 0x201 0xA3).poke 0x202 0x12 with pc := 0x201 }).fetch = some 0xA312 := by
  decide
theorem test_fetch_ends : [0xFFE, 0xFFF, 0x1000].map (fun a => ({ State.reset with pc := a }).fetch.isSome) =
    [true, false, false] := by decide
theorem test_unknown_tick : afterStep { core 0xFFFF with tacc := Seconds.frac 1 1, dt := 9, dirty := true }
    (fun t => (t.dt, t.dirty, t.fault, t.pc)) = some (8, false, some ⟨.unknownOpcode, 0x200, 0xFFFF⟩, 0x200) := by
  decide +kernel
theorem test_timer : ((timed 5 0 1 .threshold).timerUpdate (Seconds.frac 1 120)).dt = 5 ∧
    (((timed 5 0 1 .threshold).timerUpdate (Seconds.frac 1 120)).timerUpdate (Seconds.frac 1 120)).dt = 4 ∧
    ((timed 5 0 1 .threshold).timerUpdate (Seconds.frac 10 1)).dt = 4 ∧
    ((timed 0 2 1 .threshold).timerUpdate (Seconds.frac 1 60)).dt = 0 := by decide +kernel
theorem test_font_placed : ([0, 1, 2, 3, 4, 0x4B, 0x4C, 0x4D, 0x4E, 0x4F, 0x50, 0xFFF].map fun a => State.reset.peek a) =
    [0xF0, 0x90, 0x90, 0x90, 0xF0, 0xF0, 0x80, 0xF0, 0x80, 0x80, 0, 0] := by decide
theorem test_load_keeps_tail : (((State.reset.load [1, 2, 3, 4]).load [0xAA, 0xBB]).mem) =
    [(0x200, 0xAA), (0x201, 0xBB), (0x202, 3), (0x203, 4)] := by decide
theorem test_load_drops : ({ State.reset with cfg := { defaultConfig with progBase := 0xFFE } }.load [7, 8, 9]).mem =
    [(0xFFE, 7), (0xFFF, 8)] := by decide +kernel

/-- The load port writes at its address, and not below PROG_BASE, where Load never writes. -/
theorem test_load_port : (State.reset.loadByte 0x300 0xAA).mem = [(0x300, 0xAA)] ∧
    (State.reset.loadByte 0x1FF 0xAA).mem = [] := by decide
theorem test_reset_op : (State.resetPc { State.reset with sp := 1, stack := [0x0206], pc := 0x20A }) =
    { State.reset with sp := 0, stack := [0x0206], pc := 0x200 } := by decide +kernel

/-- Program P3 of part 3, assembled: its image as the spec prints it. -/
theorem test_assemble : assemble [.instr (.ldI 0x20C), .instr (.ldImm 0 10), .instr (.ldImm 1 20), .instr (.drw 0 1 1),
    .instr (.drw 0 1 1), .instr (.jp 0x20A), .db [0xAA]] =
      [0xA2, 0x0C, 0x60, 0x0A, 0x61, 0x14, 0xD0, 0x11, 0xD0, 0x11, 0x12, 0x0A, 0xAA] := by decide
theorem test_core_interface : Sys2Proof.core.reset = State.reset := rfl

/-! ### Witnesses of the statements' hypotheses -/

/-- DecodeInvertsEncode, EncodeInvertsDecode. -/
theorem wit_encoding : Instr.wf (.drw 15 15 15) = true ∧ decode 0xDFFF = some (.drw 15 15 15) := by decide

/-- OpcodeRowsDisjoint: another order of the rows. -/
theorem wit_rows : opcodeTable.reverse.Perm opcodeTable := List.reverse_perm _

/-- StepRunsTheDecodedInstruction: one that runs, one that is refused. -/
theorem wit_step : (core 0x6A2B).nextIsTick = true ∧ (core 0x6A2B).fault = none ∧ (core 0x6A2B).fetch = some 0x6A2B ∧
    decode 0x6A2B = some (.ldImm 0xA 0x2B) ∧ (core 0x8FF6).fetch = some 0x8FF6 ∧
    exec (.shr 15 15) (core 0x8FF6).beginTick = .refused .vfOperandOfFlagWriter := by
  refine ⟨by decide, by decide, by decide, by decide, by decide, rfl⟩

/-- PlacedWordIsFetched, at the last address. -/
theorem wit_placed : Memory.wf State.reset.cfg State.reset.mem ∧
    ({ State.reset with pc := 0xFFE } : State).pc.toNat + 1 < memSize := by decide

/-- HaltedTickChangesNothing, FaultLatchIsSticky. -/
theorem wit_halted : haltedCore.nextIsTick = true ∧ haltedCore.fault = some ⟨.unknownOpcode, 0x200, 0⟩ ∧
    step haltedCore = .next haltedCore.endCall := by refine ⟨by decide, by decide, rfl⟩

/-- FetchIsBigEndian and FetchOutOfBoundsHalts: the last PC that fetches, and the first two that do not. -/
theorem wit_fetch : ({ core 0 with pc := 0xFFE } : State).pc.toNat + 1 < memSize ∧
    memSize ≤ ({ core 0 with pc := 0xFFF } : State).pc.toNat + 1 ∧
    0xFFF ≤ ({ core 0 with pc := 0x1000 } : State).pc.toNat ∧ ({ core 0 with pc := 0xFFF } : State).nextIsTick = true ∧
    ({ core 0 with pc := 0xFFF } : State).fault = none := by decide

/-- UnknownOpcodeHalts. -/
theorem wit_unknown : (core 0).nextIsTick = true ∧ (core 0).fault = none ∧ (core 0).fetch = some 0 ∧ decode 0 = none := by
  decide

/-- FaultsArePrecise, FaultRecordsAreGenuine: a tick that takes each kind of fault. -/
theorem wit_faults : [core 0, core 0x00EE, { core 0x2500 with sp := 16 }, { core 0 with pc := 0xFFF },
    { core 0xF033 with i := 0xFFE }, (core 0xE2A1).setReg 2 0x10].map
      (fun s => (s.nextIsTick, s.fault.isNone, (afterStep s cause).getD none)) =
    [(true, true, some .unknownOpcode), (true, true, some .stackUnderflow), (true, true, some .stackOverflow),
     (true, true, some .fetchOutOfBounds), (true, true, some .memoryOutOfBounds),
     (true, true, some .keypadIndexOutOfRange)] := by decide +kernel

/-- DirtyTellsDisplayInstructions, RegistersChangeOnlyByWriters, IndexAndStackHaveFewWriters: ticks that answer a next
state; CLS and DRW set DIRTY, LD writes V10, LD I writes I, CALL pushes. -/
theorem wit_ticks : [core 0x00E0, core 0xD010, core 0x6A2B, core 0xA300, core 0x220A].map
      (fun s => afterStep s (fun t => (t.dirty, t.reg 0xA, t.i, t.sp))) =
    [some (true, 0, 0, 0), some (true, 0, 0, 0), some (false, 0x2B, 0, 0), some (false, 0, 0x300, 0),
     some (false, 0, 0, 1)] := by decide +kernel

/-- ProgramCounterOutcomes: the last PC, an instruction that ends there and one that faults. -/
theorem wit_pc : ({ State.reset with pc := 0xFFE } : State).pc.toNat ≤ 0xFFE ∧
    after (.se 0 0) { State.reset with pc := 0xFFE } (fun t => (t.fault, t.pc)) = some (none, 0x1002) ∧
    (after .ret { State.reset with pc := 0xFFE } cause) = some (some .stackUnderflow) := by decide

/-- RefusalsAreExactlyThese, FlagWritersRefuseVf, EveryStepCompletesOrIsRefused: both refusals happen. -/
theorem wit_refused : exec (.shl 15 0) State.reset = .refused .vfOperandOfFlagWriter ∧
    exec (.drw 0 15 3) State.reset = .refused .vfOperandOfFlagWriter ∧
    exec (.shr 1 2) (wide .refuse 0xFF 8) = .refused .shiftAmountTooWide ∧
    step (core 0x8FF6) = .refused .vfOperandOfFlagWriter := ⟨rfl, rfl, rfl, rfl⟩

/-- TimerUpdateFollowsThreshold: the rule, and the two calls that make an update. -/
theorem wit_timer_rule : State.reset.cfg.timerRule = .threshold ∧
    ({ State.reset with calls := [.timerUpdate (Seconds.frac 1 60)] } : State).calls = [.timerUpdate (Seconds.frac 1 60)] ∧
    (core 0).calls = [.tick quiet] ∧ quiet.dt = Seconds.zero := by refine ⟨rfl, rfl, rfl, rfl⟩

/-- TimerConsequences, clause by clause, at the threshold. -/
theorem wit_timer_threshold : State.reset.tacc.val + (Seconds.frac 1 61).val < 1 / 60 ∧
    1 / 60 ≤ (timed 5 1 60 .threshold).tacc.val ∧ (timed 100 0 1 .threshold).tacc = Seconds.zero ∧
    (timed 100 0 1 .threshold).dt = 100 := by decide +kernel

/-- TimerReadingsDiffer, both settings. -/
theorem wit_timer_readings : ∀ r ∈ [TimerRule.threshold, .sinceLast], (timed 5 0 1 r).cfg.timerRule = r ∧
    (timed 5 0 1 r).dt = 5 ∧ (timed 5 0 1 r).tacc = Seconds.zero ∧ (timed 5 0 1 r).tlast = Seconds.zero := by
  decide +kernel

/-- ElapsedTimeOnlyAccumulates: every kind of call answers a next state. -/
theorem wit_calls : ∀ c ∈ [DriverCall.load [1], .loadByte 0x200 1, .reset, .timerUpdate Seconds.zero, .tick quiet],
    (afterStep { core 0x00E0 with calls := [c] } (fun t => t.calls)) = some [] := by decide +kernel

/-- ElapsedTimeOnlyAccumulates: a TimerUpdate on a halted core answers a next state. -/
theorem wit_halted_update : (∃ r, haltedCore.fault = some r) ∧
    afterStep { haltedCore with calls := [.timerUpdate (Seconds.frac 1 60)] } (fun t => t.tacc.val) = some (1 / 60) :=
  ⟨⟨_, rfl⟩, by decide +kernel⟩

/-- DelayAccessSeesThisTicksUpdate. -/
theorem wit_delay : (core 0xF107).Executes (.ldVxDt 1) ∧ (core 0xF015).Executes (.ldDtVx 0) :=
  ⟨⟨by decide, by decide, 0xF107, by decide, by decide⟩, ⟨by decide, by decide, 0xF015, by decide, by decide⟩⟩

/-- DrawSpriteEffect, DrawTwiceRestores: the last I that reads 8 rows and the first that does not; a collision and
none. -/
theorem wit_draw : ({ State.reset with i := 0xFF8 } : State).i.toNat + (8 : Nibble).toNat ≤ memSize ∧
    memSize < ({ State.reset with i := 0xFF9 } : State).i.toNat + (8 : Nibble).toNat ∧
    ({ State.reset with fb := Frame.blank.put 0 0 true } : State).fb.pixel 0 0 = true ∧
    ({ State.reset with fb := Frame.blank.put 0 0 true } : State).spriteBit 0 0 5 0 0 = true ∧
    State.reset.fb.pixel 0 0 = false ∧ (0 : Nibble) ≠ 15 ∧ (1 : Nibble) ≠ 15 := by decide +kernel

/-- ReturnPops, CallPushes, CallThenReturnRoundTrip: an empty stack, one slot free, none free. -/
theorem wit_stack : State.reset.sp = 0 ∧ State.reset.stack.length = State.reset.cfg.stackDepth ∧
    ({ State.reset with sp := 16 } : State).sp = State.reset.cfg.stackDepth ∧
    ({ State.reset with sp := 15 } : State).sp < State.reset.cfg.stackDepth ∧
    ({ State.reset with sp := 15 } : State).sp ≠ 0 ∧ ({ State.reset with pc := 0xFFE } : State).pc.toNat ≤ 0xFFE := by
  decide

/-- SkipIfEqual and SkipIfKeyNotPressed, every clause: keys 15 and 16, pressed and not. -/
theorem wit_skip : State.reset.reg 3 = 0 ∧ State.reset.reg 3 ≠ 1 ∧ ((pair 15 16).reg 1).toNat < 16 ∧
    15 < ((pair 15 16).reg 2).toNat ∧ quiet.key[15] = false ∧ (quiet.key.set 15 true)[15] = true := by decide

/-- ShiftLeftEffect, ShiftRightEffect: amounts 7 and 8 under every setting that runs them, one register named twice. -/
theorem wit_shift : (1 : Nibble) ≠ 15 ∧ (2 : Nibble) ≠ 15 ∧ ((wide .refuse 1 7).reg 2).toNat ≤ 7 ∧
    (∀ w ∈ [ShiftWide.zero, .mod8], (wide w 1 8).cfg.shiftWide = w ∧ 8 ≤ ((wide w 1 8).reg 2).toNat ∧
      ¬ (8 ≤ ((wide w 1 8).reg 2).toNat ∧ (wide w 1 8).cfg.shiftWide = .refuse)) ∧
    ((wide .refuse 1 200).shiftAmount 2 2) = 1 := by decide

/-- StoreDecimalDigits, BlockLoadEffect, StoredCodeIsFetchedNext: the last I that fits, and the first that does not. -/
theorem wit_index : ({ State.reset with i := 0xFFD } : State).i.toNat + 2 < memSize ∧
    memSize ≤ ({ State.reset with i := 0xFFE } : State).i.toNat + 2 ∧
    ({ State.reset with i := 0xFF0 } : State).i.toNat + (15 : Nibble).toNat < memSize ∧
    memSize ≤ ({ State.reset with i := 0xFF1 } : State).i.toNat + (15 : Nibble).toNat ∧
    ({ State.reset with i := 0x202 } : State).pc.toNat + 2 = ({ State.reset with i := 0x202 } : State).i.toNat := by decide

/-- LoadPlacesBytes, ResetWritesOnlyPcAndSp: such calls; a byte that fits and one that does not. -/
theorem wit_load : ({ State.reset with calls := [.load [7, 8, 9]] } : State).calls = [.load [7, 8, 9]] ∧
    ({ State.reset with calls := [.reset] } : State).calls = [.reset] ∧ (0xFFE : Addr).toNat + 1 < memSize ∧
    memSize ≤ (0xFFE : Addr).toNat + 2 := by refine ⟨rfl, rfl, by decide, by decide⟩

/-- TickWithoutLoadHalts, LoadAfterConstructionLaunches, ConstructionMeetsInvariant: the first and the last program base from which a word is fetched. -/
theorem wit_config : [(80 : Addr), 0x200, 0xFFE].map (fun a => (({ defaultConfig with progBase := a }).wf,
    decide (({ defaultConfig with progBase := a } : Config).progBase.toNat ≤ 0xFFE))) =
      [(true, true), (true, true), (true, true)] := by decide

/-- EveryStepKeepsInvariant: a state with the invariant that takes a step. -/
theorem wit_inv : (core 0x00E0).Inv ∧ (nextState (step (core 0x00E0))).isSome = true :=
  ⟨⟨by decide, by decide, by decide, fun a h => by rw [List.eq_of_mem_replicate h]; decide, by decide, by decide, by decide +kernel⟩,
    by decide +kernel⟩

/-- OnlyDisplayInstructionsChangeFrame: CLS clears a lit pixel; DRW lights one. -/
theorem wit_frame : afterStep { core 0x00E0 with fb := Frame.blank.put 0 0 true } (fun t => t.fb.pixel 0 0) = some false ∧
    afterStep (core 0xD011) (fun t => t.fb.pixel 0 0) = some true ∧ (core 0xD011).fb.pixel 0 0 = false := by
  decide +kernel

/-- OnlyDigitsAndLoadWriteMemory: LD B over the font, and a load. -/
theorem wit_memory : Memory.wf (core 0xF033).cfg (core 0xF033).mem ∧
    afterStep (core 0xF033) (fun t => t.peek 0) = some 0 ∧ (core 0xF033).peek 0 = 0xF0 ∧
    afterStep { State.reset with calls := [.load [0x12]] } (fun t => t.peek 0x200) = some 0x12 ∧
    State.reset.peek 0x200 = 0 := by decide +kernel

/-- FreeSlotsStayClear: the premise at reset, where no reset operation is pending. -/
theorem wit_slots : (core 0x220A).VacatedClear ∧ (∀ rest, (core 0x220A).calls = .reset :: rest → (core 0x220A).sp = 0) ∧
    (nextState (step (core 0x220A))).isSome = true := by
  refine ⟨fun j _ => ?_, fun rest _ => rfl, by decide +kernel⟩
  show (List.replicate 16 (0 : Word)).getD j 0 = 0
  rw [List.getD_eq_getElem?_getD, List.getElem?_replicate]
  split <;> rfl

/-- FreeSlotsAreUnobservable: two states that differ in a free slot, that run, and that are refused. -/
theorem wit_free_slots : SameButFreeSlots (core 0x00E0) { core 0x00E0 with stack := (core 0x00E0).stack.set 3 7 } ∧
    (nextState (step (core 0x00E0))).isSome = true ∧
    SameButFreeSlots (core 0x8FF6) { core 0x8FF6 with stack := (core 0x8FF6).stack.set 3 7 } ∧
    step (core 0x8FF6) = .refused .vfOperandOfFlagWriter :=
  ⟨⟨rfl, rfl, fun j hj => absurd hj (Nat.not_lt_zero j)⟩, by decide +kernel,
   ⟨rfl, rfl, fun j hj => absurd hj (Nat.not_lt_zero j)⟩, rfl⟩

/-- RestingPointStays. -/
theorem wit_resting : (core 0x1200).Resting ∧ (core 0x1200).nextIsTick = true :=
  ⟨⟨by decide, by decide, by decide⟩, by decide⟩

/-- The launch premises hold of a core that has loaded a program (R214). -/
theorem wit_launched : (State.reset.load [0x12, 0x00]).Launched [0x12, 0x00] :=
  ⟨rfl, by decide, rfl, by decide,
    ⟨by decide, by decide, by decide, fun a h => by rw [List.eq_of_mem_replicate h]; decide, by decide, by decide, by decide +kernel⟩⟩

/-- The launch premise for glyphs holds right after construction and fails once LD B has written over the font. -/
theorem wit_font : State.reset.FontIntact ∧ ¬ (State.reset.poke 0 1).FontIntact :=
  ⟨fun a h => by simp [State.reset, State.construct, State.peek, Memory.get, initByte, h],
   fun h => absurd (h 0 (by decide)) (by decide)⟩

/-- TickWithoutLoadHalts: with no call pending, and with a tick whose inputs are supplied. -/
theorem wit_first_tick : State.reset.nextIsTick = true ∧
    ({ State.construct defaultConfig with calls := [.tick quiet] } : State).nextIsTick = true := by decide

/-- LoadAfterConstructionLaunches, LoadPortWritesOneByte: the longest image that fits; addresses at PROG_BASE and one
below it; such calls. -/
theorem wit_load_port : defaultConfig.progBase.toNat + (List.replicate 3584 (0 : Byte)).length ≤ memSize ∧
    State.reset.cfg.progBase.toNat ≤ (0x200 : Addr).toNat ∧ (0x1FF : Addr).toNat < State.reset.cfg.progBase.toNat ∧
    Memory.wf State.reset.cfg State.reset.mem ∧
    ({ State.reset with calls := [.loadByte 0x200 7] } : State).calls = [.loadByte 0x200 7] := by
  rw [List.length_replicate]; decide

/-- PortsShowTheState: the last pixel, a latched fault and none, the slowest clock of the dt port, the last key. -/
theorem wit_ports : (31 < 32 ∧ 63 < 64) ∧ haltedCore.fault = some ⟨.unknownOpcode, 0x200, 0⟩ ∧
    State.reset.fault = none ∧ 0 < 1 ∧ 15 < 16 := by decide

end Sys2Proof.Tests
end

section
/-! SUPPORT. Inversion of `exec` as a whole: what an instruction that answers a next state did, guards included; and,
field by field, which instructions touch it. Later proofs cite the field lemmas and split neither `exec` nor `ExecCase`
again. -/

namespace Sys2Proof.Machine

open Sys2Proof

/-- When an instruction raises a fault of R172 to R176. -/
inductive State.Raises (s : State) : Instr → Fault → Prop
  | ret (empty : s.sp = 0) : s.Raises .ret .stackUnderflow
  | call (addr : Addr) (full : s.cfg.stackDepth ≤ s.sp) : s.Raises (.call addr) .stackOverflow
  | sknp (x : Nibble) (range : 15 < (s.reg x).toNat) : s.Raises (.sknp x) .keypadIndexOutOfRange
  | drw (x y n : Nibble) (noVf : namesVf x y = false) (bound : memSize < s.i.toNat + n.toNat) :
      s.Raises (.drw x y n) .memoryOutOfBounds
  | ldB (x : Nibble) (bound : memSize < s.i.toNat + 3) : s.Raises (.ldB x) .memoryOutOfBounds
  | ldVxI (x : Nibble) (bound : memSize < s.i.toNat + (x.toNat + 1)) : s.Raises (.ldVxI x) .memoryOutOfBounds

/-- The next state of an instruction: a fault is latched, or the instruction took its effect. -/
inductive ExecCase (s : State) : Instr → State → Prop
  | raised (i : Instr) (cause : Fault) (raises : s.Raises i cause) : ExecCase s i (s.raise cause (encode i))
  | cls : ExecCase s .cls ((s.touchFrame Frame.blank).finish .next)
  | ret (nonempty : s.sp ≠ 0) : ExecCase s .ret (s.drop.finish (.jump s.top))
  | jp (addr : Addr) : ExecCase s (.jp addr) (s.finish (.jump (addr.setWidth 16)))
  | call (addr : Addr) (room : s.sp < s.cfg.stackDepth) :
      ExecCase s (.call addr) ((s.push (s.pc + 2)).finish (.jump (addr.setWidth 16)))
  | se (x : Nibble) (kk : Byte) : ExecCase s (.se x kk) (s.finish (if s.reg x = kk then .skip else .next))
  | ldImm (x : Nibble) (kk : Byte) : ExecCase s (.ldImm x kk) ((s.setReg x kk).finish .next)
  | addImm (x : Nibble) (kk : Byte) : ExecCase s (.addImm x kk) ((s.setReg x (s.reg x + kk)).finish .next)
  | shl (x y : Nibble) (r : Byte) (noVf : namesVf x y = false)
      (result : shiftResult s.cfg.shiftWide (fun k => s.reg x <<< k) (s.shiftAmount x y) = some r) :
      ExecCase s (.shl x y) (((s.setReg x r).setFlag (shlFlag (s.reg x))).finish .next)
  | shr (x y : Nibble) (r : Byte) (noVf : namesVf x y = false)
      (result : shiftResult s.cfg.shiftWide (fun k => s.reg x >>> k) (s.shiftAmount x y) = some r) :
      ExecCase s (.shr x y) (((s.setReg x r).setFlag (shrFlag (s.reg x))).finish .next)
  | ldI (addr : Addr) : ExecCase s (.ldI addr) ((s.setIndex addr).finish .next)
  | drw (x y n : Nibble) (rows : List Byte) (noVf : namesVf x y = false)
      (read : s.readBlock s.i.toNat n.toNat = some rows) :
      ExecCase s (.drw x y n)
        (((s.touchFrame (drawSprite (s.reg x).toNat (s.reg y).toNat rows s.fb).1).setFlag
          (drawSprite (s.reg x).toNat (s.reg y).toNat rows s.fb).2).finish .next)
  | sknp (x : Nibble) (range : (s.reg x).toNat ≤ 15) :
      ExecCase s (.sknp x) (s.finish (if s.key (s.reg x).toNat then .next else .skip))
  | rnd (x : Nibble) (kk : Byte) : ExecCase s (.rnd x kk) ((s.setReg x (s.input.rnd &&& kk)).finish .next)
  | ldVxDt (x : Nibble) : ExecCase s (.ldVxDt x) ((s.setReg x s.dt).finish .next)
  | ldDtVx (x : Nibble) : ExecCase s (.ldDtVx x) ((s.setDelay (s.reg x)).finish .next)
  | ldF (x : Nibble) : ExecCase s (.ldF x) ((s.setIndex (glyphAddr (s.reg x))).finish .next)
  | ldB (x : Nibble) (bound : s.i.toNat + 3 ≤ memSize) :
      ExecCase s (.ldB x) ((s.pokes s.i.toNat (bcdDigits (s.reg x))).finish .next)
  | ldVxI (x : Nibble) (bs : List Byte) (read : s.readBlock s.i.toNat (x.toNat + 1) = some bs) :
      ExecCase s (.ldVxI x) ((s.setRegs bs).finish .next)

variable {s t : State} {i : Instr}

/-- Inversion of `exec`. -/
theorem exec_cases (h : exec i s = .next t) : ExecCase s i t := by
  cases i with
  | ret =>
    obtain ⟨empty, rfl⟩ | ⟨nonempty, rfl⟩ := execRet_cases h
    · exact .raised _ _ (.ret empty)
    · exact .ret nonempty
  | call addr =>
    obtain ⟨full, rfl⟩ | ⟨room, rfl⟩ := execCall_cases h
    · exact .raised _ _ (.call addr full)
    · exact .call addr room
  | sknp x =>
    obtain ⟨range, rfl⟩ | ⟨range, rfl⟩ := execSknp_cases h
    · exact .raised _ _ (.sknp x range)
    · exact .sknp x range
  | drw x y n =>
    obtain ⟨noVf, ⟨bound, rfl⟩ | ⟨rows, read, rfl⟩⟩ := execDrw_cases h
    · exact .raised _ _ (.drw x y n noVf bound)
    · exact .drw x y n rows noVf read
  | shl x y => obtain ⟨noVf, r, result, rfl⟩ := shiftInto_cases h; exact .shl x y r noVf result
  | shr x y => obtain ⟨noVf, r, result, rfl⟩ := shiftInto_cases h; exact .shr x y r noVf result
  | ldB x =>
    obtain ⟨bound, rfl⟩ | ⟨bound, rfl⟩ := execLdB_cases h
    · exact .raised _ _ (.ldB x bound)
    · exact .ldB x bound
  | ldVxI x =>
    obtain ⟨bound, rfl⟩ | ⟨bs, read, rfl⟩ := execLdVxI_cases h
    · exact .raised _ _ (.ldVxI x bound)
    · exact .ldVxI x bs read
  | cls => obtain rfl := Host.Outcome.next.inj h; exact .cls
  | jp addr => obtain rfl := Host.Outcome.next.inj h; exact .jp addr
  | se x kk => obtain rfl := Host.Outcome.next.inj h; exact .se x kk
  | ldImm x kk => obtain rfl := Host.Outcome.next.inj h; exact .ldImm x kk
  | addImm x kk => obtain rfl := Host.Outcome.next.inj h; exact .addImm x kk
  | ldI addr => obtain rfl := Host.Outcome.next.inj h; exact .ldI addr
  | rnd x kk => obtain rfl := Host.Outcome.next.inj h; exact .rnd x kk
  | ldVxDt x => obtain rfl := Host.Outcome.next.inj h; exact .ldVxDt x
  | ldDtVx x => obtain rfl := Host.Outcome.next.inj h; exact .ldDtVx x
  | ldF x => obtain rfl := Host.Outcome.next.inj h; exact .ldF x

/-! ### What no instruction touches -/

theorem exec_cfg (h : exec i s = .next t) : t.cfg = s.cfg := by cases exec_cases h <;> rfl

theorem exec_tacc (h : exec i s = .next t) : t.tacc = s.tacc := by cases exec_cases h <;> rfl

theorem exec_tlast (h : exec i s = .next t) : t.tlast = s.tlast := by cases exec_cases h <;> rfl

/-! ### The instructions that touch a field -/

/-- R28. -/
theorem exec_fb (h : exec i s = .next t) : t.fb = s.fb ∨ i = .cls ∨ ∃ x y n, i = .drw x y n := by
  cases exec_cases h with
  | cls => exact .inr (.inl rfl)
  | drw x y n => exact .inr (.inr ⟨x, y, n, rfl⟩)
  | _ => exact .inl rfl

/-- R22. -/
theorem exec_index (h : exec i s = .next t) : t.i = s.i ∨ (∃ addr, i = .ldI addr) ∨ ∃ x, i = .ldF x := by
  cases exec_cases h with
  | ldI addr => exact .inr (.inl ⟨addr, rfl⟩)
  | ldF x => exact .inr (.inr ⟨x, rfl⟩)
  | _ => exact .inl rfl

/-- R29: on a running core with DIRTY clear, DIRTY is set by CLS and DRW alone, and only when they do not fault. -/
theorem exec_dirty (h : exec i s = .next t) (running : s.fault = none) (clear : s.dirty = false) :
    t.dirty = true ↔ t.fault = none ∧ (i = .cls ∨ ∃ x y n, i = .drw x y n) := by
  cases exec_cases h with
  | raised => simp [clear]
  | cls | drw => simp [running]
  | _ => simp [clear]

theorem setReg_changes {x r : Nibble} {b : Byte} (h : (s.setReg x b).reg r ≠ s.reg r) : r = x := by
  by_contra hx
  exact h (by rw [setReg_reg, if_neg hx])

theorem setReg_setFlag_changes {x r : Nibble} {b : Byte} {flag : Bool}
    (h : ((s.setReg x b).setFlag flag).reg r ≠ s.reg r) : r = x ∨ r = 15 := by
  by_cases hf : r = 15
  · exact .inr hf
  · rw [setFlag_reg, if_neg hf] at h
    exact .inl (setReg_changes h)

/-- R20, R21. -/
theorem exec_reg {r : Nibble} (h : exec i s = .next t) (hr : t.reg r ≠ s.reg r) : mayWrite i r := by
  cases exec_cases h with
  | ldImm | addImm | rnd | ldVxDt => exact setReg_changes hr
  | shl | shr => exact setReg_setFlag_changes hr
  | drw => exact setReg_changes hr
  | ldVxI x bs read =>
    by_contra hx
    have past : ¬ r.toNat < x.toNat + 1 := fun hlt => hx (Nat.le_of_lt_succ hlt)
    rw [finish_reg, setRegs_reg, readBlock_get read, if_neg past] at hr
    exact hr rfl
  | _ => exact absurd rfl hr

/-- The stack after an instruction. -/
inductive StackCase (s : State) (i : Instr) (t : State) : Prop
  | kept (sp : t.sp = s.sp) (stack : t.stack = s.stack)
  | popped (isRet : i = .ret) (nonempty : s.sp ≠ 0) (sp : t.sp = s.sp - 1)
      (stack : t.stack = s.stack.set (s.sp - 1) 0)
  | pushed (addr : Addr) (isCall : i = .call addr) (room : s.sp < s.cfg.stackDepth) (sp : t.sp = s.sp + 1)
      (stack : t.stack = s.stack.set s.sp (s.pc + 2))

/-- R130, R132, R135. -/
theorem exec_stack (h : exec i s = .next t) : StackCase s i t := by
  cases exec_cases h with
  | ret nonempty => exact .popped rfl nonempty rfl rfl
  | call addr room => exact .pushed addr rfl room rfl rfl
  | _ => exact .kept rfl rfl

/-- R104: where PC can be after an instruction. -/
inductive PcCase (s t : State) : Prop
  | kept (pc : t.pc = s.pc)
  | next (pc : t.pc = s.pc + 2)
  | skip (pc : t.pc = s.pc + 4)
  | jump (addr : Addr) (pc : t.pc = addr.setWidth 16)
  | popped (pc : t.pc = s.top)

theorem exec_pc (h : exec i s = .next t) : PcCase s t := by
  cases exec_cases h with
  | raised => exact .kept rfl
  | ret => exact .popped rfl
  | jp addr | call addr => exact .jump addr rfl
  | se x kk =>
    by_cases hx : s.reg x = kk
    · exact .skip (by simp [hx, nextPc])
    · exact .next (by simp [hx, nextPc])
  | sknp x =>
    by_cases hk : s.key (s.reg x).toNat
    · exact .next (by simp [hk, nextPc])
    · exact .skip (by simp [hk, nextPc])
  | _ => exact .next rfl

/-- The one instruction that writes memory checks its bounds first (R152). -/
theorem exec_memWf (h : exec i s = .next t) (hm : Memory.wf s.cfg s.mem) : Memory.wf t.cfg t.mem := by
  cases exec_cases h with
  | ldB x bound => exact Memory.putAll_wf (bcdDigits (s.reg x)) s.i.toNat hm bound
  | _ => exact hm

end Sys2Proof.Machine
end

section
/-! SUPPORT. The step seen from outside: either it executed an instruction, or it kept all that only instructions
write; and what a tick, the timer and the host's calls do to the rest. -/

namespace Sys2Proof.Machine

open Sys2Proof

variable {s t : State} {i : Instr}

/-! ### Ticks -/

theorem nextIsTick_iff : s.nextIsTick = true ↔ s.calls = [] ∨ ∃ inp rest, s.calls = .tick inp :: rest := by
  unfold State.nextIsTick
  split
  · simp [*]
  · rename_i c rest e
    cases c <;> simp [e, DriverCall.isTick]

/-- A fetched word lies wholly inside memory (R53). -/
theorem State.Executes.pc_le (h : s.Executes i) : s.pc.toNat ≤ 0xFFE := by
  obtain ⟨-, -, op, fetched, -⟩ := h
  have := (fetch_eq_some.1 fetched).1
  simp only [memSize] at this
  omega

/-- A step executes one instruction at most. -/
theorem State.Executes.unique {j : Instr} (hi : s.Executes i) (hj : s.Executes j) : i = j := by
  obtain ⟨-, -, op, fetched, decoded⟩ := hi
  obtain ⟨-, -, op', fetched', decoded'⟩ := hj
  obtain rfl := Option.some.inj (fetched.symm.trans fetched')
  exact Option.some.inj (decoded.symm.trans decoded')

/-- A step that is a tick of a running core: it executed an instruction, or fetch or decode raised a fault. -/
theorem running_tick_cases (call : s.nextIsTick = true) (running : s.fault = none) (h : step s = .next t) :
    (∃ i u, s.Executes i ∧ exec i s.beginTick = .next u ∧ t = u.endCall) ∨
    ∃ cause op, t = (s.beginTick.raise cause op).endCall := by
  cases step_cases h with
  | run op i u _ _ fetched decoded executed result =>
    exact .inl ⟨i, u, ⟨call, running, op, fetched, decoded⟩, executed, result⟩
  | fetchFault _ _ _ result => exact .inr ⟨_, _, result⟩
  | unknown op _ _ _ _ result => exact .inr ⟨_, _, result⟩
  | halted _ isHalted => simp [State.halted, running] at isHalted
  | load _ _ e | loadByte _ _ _ e | reset _ e | timerUpdate _ _ e =>
    simp [State.nextIsTick, e, DriverCall.isTick] at call

/-! ### Steps that execute no instruction -/

/-- What a step keeps that executes no instruction: registers, I, the frame buffer, the stack, but for the SP of a
reset call (R202). -/
structure KeptWithoutExec (s t : State) : Prop where
  v : t.v = s.v
  i : t.i = s.i
  fb : t.fb = s.fb
  stack : t.stack = s.stack
  sp : t.sp = s.sp ∨ t.sp = 0 ∧ ∃ rest, s.calls = .reset :: rest

theorem step_executes_or_keeps (h : step s = .next t) :
    (∃ i u, s.Executes i ∧ exec i s.beginTick = .next u ∧ t = u.endCall) ∨ KeptWithoutExec s t := by
  cases step_cases h with
  | run op i u call running fetched decoded executed result =>
    exact .inl ⟨i, u, ⟨call, running, op, fetched, decoded⟩, executed, result⟩
  | reset rest call result => subst result; exact .inr ⟨rfl, rfl, rfl, rfl, .inr ⟨rfl, rest, call⟩⟩
  | load _ _ _ result | loadByte _ _ _ _ result | timerUpdate _ _ _ result | halted _ _ result
  | fetchFault _ _ _ result | unknown _ _ _ _ _ result =>
    subst result; exact .inr ⟨by simp, by simp, by simp, by simp, .inl (by simp)⟩

/-! ### Elapsed time -/

theorem Seconds.le_refl (a : Seconds) : a.le a := Rat.le_refl

theorem Seconds.le_add (a d : Seconds) : a.le (a.add d) := by
  have := d.nonneg
  simp only [Seconds.le, Seconds.add_val]
  linarith

/-! ### The call stack -/

theorem getD_set_zero (l : List Word) (k j : Nat) (a : Word) :
    (l.set k a).getD j 0 = if j = k ∧ k < l.length then a else l.getD j 0 := by
  simp only [List.getD_eq_getElem?_getD, List.getElem?_set]
  by_cases hj : j = k
  · subst hj
    by_cases hl : j < l.length <;> simp [hl]
  · simp [hj, Ne.symm hj]

theorem construct_vacatedClear (c : Config) : (State.construct c).VacatedClear := by
  intro j _
  show (List.replicate c.stackDepth (0 : Word)).getD j 0 = 0
  rw [List.getD_eq_getElem?_getD, List.getElem?_replicate]
  split <;> rfl

/-- R130, R132: a pop clears the slot it vacates, and a push fills the lowest free slot. -/
theorem exec_vacatedClear (h : exec i s = .next t) (hs : s.VacatedClear) : t.VacatedClear := by
  intro j hj
  cases exec_stack h with
  | kept sp stack => rw [stack]; exact hs j (sp ▸ hj)
  | popped _ _ sp stack =>
    rw [stack, getD_set_zero]
    split
    · rfl
    · rename_i hne
      by_cases hlow : j = s.sp - 1
      · exact List.getD_eq_default _ _ (by omega)
      · exact hs j (by omega)
  | pushed _ _ _ sp stack =>
    rw [stack, getD_set_zero, if_neg (by omega)]
    exact hs j (by omega)

end Sys2Proof.Machine
end

section
/-! PROOFS. The invariant of 10_state.md R46: every operation of the driver and every instruction keeps it. -/

namespace Sys2Proof.Machine

open Sys2Proof

variable {s t : State} {i : Instr}

/-! ### Where PC goes -/

theorem addr_setWidth_toNat (a : Addr) : (a.setWidth 16).toNat = a.toNat :=
  BitVec.toNat_setWidth_of_le (by decide)

theorem top_le (h : ∀ a ∈ s.stack, a.toNat ≤ 0x1000) : s.top.toNat ≤ 0x1000 := by
  unfold State.top
  by_cases hk : s.sp - 1 < s.stack.length
  · rw [List.getD_eq_getElem _ _ hk]
    exact h _ (List.getElem_mem hk)
  · rw [List.getD_eq_default _ _ (by omega)]
    decide

/-- R23, R104: from an address where an instruction can be fetched, no outcome passes 0x1002. -/
theorem exec_pc_le (h : exec i s = .next t) (slotLe : ∀ a ∈ s.stack, a.toNat ≤ 0x1000)
    (pcLe : s.pc.toNat ≤ 0xFFE) : t.pc.toNat ≤ 0x1002 := by
  cases exec_pc h with
  | kept pc => rw [pc]; omega
  | next pc => bv_omega
  | skip pc => bv_omega
  | jump addr pc =>
    have := addr.isLt
    rw [pc, addr_setWidth_toNat]
    omega
  | popped pc =>
    have := top_le slotLe
    rw [pc]
    omega

/-! ### The stack -/

/-- R24, R25: the clauses of the invariant on the stack, kept by every instruction. -/
theorem exec_keeps_stack (h : exec i s = .next t) (inv : s.Inv) (pcLe : s.pc.toNat ≤ 0xFFE) :
    t.sp ≤ s.cfg.stackDepth ∧ t.stack.length = s.cfg.stackDepth ∧ ∀ a ∈ t.stack, a.toNat ≤ 0x1000 := by
  have spLe := inv.spLe
  cases exec_stack h with
  | kept sp stack => exact ⟨sp ▸ spLe, stack ▸ inv.slots, stack ▸ inv.slotLe⟩
  | popped _ _ sp stack =>
    rw [sp, stack]
    refine ⟨by omega, by rw [List.length_set, inv.slots], fun a ha => ?_⟩
    obtain ha | rfl := List.mem_or_eq_of_mem_set ha
    · exact inv.slotLe a ha
    · decide
  | pushed _ _ room sp stack =>
    rw [sp, stack]
    refine ⟨room, by rw [List.length_set, inv.slots], fun a ha => ?_⟩
    obtain ha | rfl := List.mem_or_eq_of_mem_set ha
    · exact inv.slotLe a ha
    · bv_omega

/-! ### Every operation keeps the invariant -/

theorem exec_inv (h : exec i s = .next t) (inv : s.Inv) (pcLe : s.pc.toNat ≤ 0xFFE) : t.Inv := by
  obtain ⟨spLe, slots, slotLe⟩ := exec_keeps_stack h inv pcLe
  have cfg := exec_cfg h
  exact
    { cfgWf := cfg ▸ inv.cfgWf
      spLe := cfg ▸ spLe
      slots := cfg ▸ slots
      slotLe := slotLe
      pcLe := exec_pc_le h inv.slotLe pcLe
      memWf := exec_memWf h inv.memWf
      markLe := by rw [exec_tlast h, exec_tacc h]; exact inv.markLe }

/-- The invariant does not speak of the call queue, the draw counter, DIRTY or FAULT. -/
theorem endCall_inv (inv : s.Inv) : s.endCall.Inv := { inv with }

theorem raise_inv (cause : Fault) (op : Word) (inv : s.Inv) : (s.raise cause op).Inv := { inv with }

theorem timerUpdate_inv (d : Seconds) (inv : s.Inv) : (s.timerUpdate d).Inv :=
  { inv with markLe := timerUpdate_mark inv.markLe d }

theorem beginTick_inv (inv : s.Inv) : s.beginTick.Inv := { timerUpdate_inv s.input.dt inv with }

theorem load_inv (bytes : List Byte) (inv : s.Inv) : (s.load bytes).Inv :=
  { inv with memWf := load_wf bytes inv.memWf }

theorem loadByte_inv (a : Addr) (b : Byte) (inv : s.Inv) : (s.loadByte a b).Inv :=
  { inv with memWf := loadByte_wf a b inv.memWf }

/-- R202: PROG_BASE is an address of memory. -/
theorem resetPc_inv (inv : s.Inv) : s.resetPc.Inv :=
  { inv with
    spLe := Nat.zero_le _
    pcLe := by
      have := s.cfg.progBase.isLt
      rw [resetPc_pc, addr_setWidth_toNat]
      omega }

theorem step_inv (h : step s = .next t) (inv : s.Inv) : t.Inv := by
  cases step_cases h with
  | load bytes _ _ result => subst result; exact endCall_inv (load_inv bytes inv)
  | loadByte a b _ _ result => subst result; exact endCall_inv (loadByte_inv a b inv)
  | reset _ _ result => subst result; exact endCall_inv (resetPc_inv inv)
  | timerUpdate d _ _ result => subst result; exact endCall_inv (timerUpdate_inv d inv)
  | halted _ _ result => subst result; exact endCall_inv inv
  | fetchFault _ _ _ result => subst result; exact endCall_inv (raise_inv _ _ (beginTick_inv inv))
  | unknown _ _ _ _ _ result => subst result; exact endCall_inv (raise_inv _ _ (beginTick_inv inv))
  | run op i u call running fetched decoded executed result =>
    subst result
    have pcLe : s.pc.toNat ≤ 0xFFE := State.Executes.pc_le ⟨call, running, op, fetched, decoded⟩
    exact endCall_inv (exec_inv executed (beginTick_inv inv) pcLe)

/-- Settles O49: the driver's operations keep the clauses they touch, and an instruction runs only from a PC that
fetches, where PC + 2 is at most 0x1000 and PC + 4 at most 0x1002. -/
theorem everyStepKeepsInvariant : Obligations.EveryStepKeepsInvariant :=
  fun _ _ inv h => step_inv h inv

/-! ### Construction -/

theorem construct_inv {c : Config} (wf : c.wf = true) : (State.construct c).Inv where
  cfgWf := wf
  spLe := Nat.zero_le _
  slots := List.length_replicate
  slotLe a ha := by rw [List.eq_of_mem_replicate ha]; decide
  pcLe := by
    have := c.progBase.isLt
    have pc : (State.construct c).pc.toNat = c.progBase.toNat := addr_setWidth_toNat c.progBase
    omega
  memWf := construct_memWf c
  markLe := Seconds.le_refl _

/-- Settles O48: the base case of the invariant. -/
theorem constructionMeetsInvariant : Obligations.ConstructionMeetsInvariant :=
  ⟨fun _ wf => construct_inv wf, construct_inv (by decide)⟩

end Sys2Proof.Machine
end

section
/-! PROOFS. Which steps change which part of the state (10_state.md R20 to R29), and the values of construction and of
the reset operation (R40 to R43). -/

namespace Sys2Proof.Machine

open Sys2Proof

variable {s t : State} {i : Instr}

/-! ### DIRTY -/

/-- Executing a display instruction, said of the one instruction that the step executes. -/
theorem State.Executes.display_iff (h : s.Executes i) :
    (s.Executes .cls ∨ ∃ x y n, s.Executes (.drw x y n)) ↔ i = .cls ∨ ∃ x y n, i = .drw x y n := by
  constructor
  · rintro (hc | ⟨x, y, n, hd⟩)
    · exact .inl (h.unique hc)
    · exact .inr ⟨x, y, n, h.unique hd⟩
  · rintro (rfl | ⟨x, y, n, rfl⟩)
    · exact .inl h
    · exact .inr ⟨x, y, n, h⟩

theorem running_tick_dirty (call : s.nextIsTick = true) (running : s.fault = none) (h : step s = .next t) :
    t.dirty = true ↔ t.fault = none ∧ (s.Executes .cls ∨ ∃ x y n, s.Executes (.drw x y n)) := by
  obtain ⟨i, u, executes, executed, rfl⟩ | ⟨cause, op, rfl⟩ := running_tick_cases call running h
  · rw [executes.display_iff]
    have dirty := exec_dirty executed running (beginTick_dirty s)
    exact dirty
  · simp

theorem tickReturn_of_no_fault (h : t.fault = none) : t.tickReturn = .ok t.fb t.dirty := by
  simp [State.tickReturn, h]

/-- Settles O16: the tick clears DIRTY before it fetches, and only CLS and DRW set it again. -/
theorem dirtyTellsDisplayInstructions : Obligations.DirtyTellsDisplayInstructions :=
  fun _ _ call running h => ⟨running_tick_dirty call running h, tickReturn_of_no_fault⟩

/-! ### Elapsed time -/

/-- R27, R34: what a tick adds to TACC. -/
theorem tick_tacc (call : s.nextIsTick = true) (h : step s = .next t) :
    t.tacc = if s.fault = none then s.tacc.add s.input.dt else s.tacc := by
  by_cases running : s.fault = none
  · rw [if_pos running]
    obtain ⟨i, u, -, executed, rfl⟩ | ⟨cause, op, rfl⟩ := running_tick_cases call running h
    · rw [endCall_tacc, exec_tacc executed, beginTick_tacc]
    · rfl
  · rw [if_neg running]
    have halted : s.halted = true := by simpa [State.halted, Option.isSome_iff_ne_none] using running
    rw [step_of_tick call, tick, if_pos halted] at h
    obtain rfl := Host.Outcome.next.inj h
    rfl

theorem step_cfg (h : step s = .next t) : t.cfg = s.cfg := by
  cases step_cases h with
  | run _ _ _ _ _ _ _ executed result => rw [result, endCall_cfg, exec_cfg executed, beginTick_cfg]
  | load _ _ _ result | loadByte _ _ _ _ result | reset _ _ result | timerUpdate _ _ _ result | halted _ _ result
  | fetchFault _ _ _ result | unknown _ _ _ _ _ result => rw [result]; simp

theorem step_tacc_le (h : step s = .next t) : s.tacc.le t.tacc := by
  cases step_cases h with
  | timerUpdate d _ _ result => rw [result]; exact Seconds.le_add _ d
  | fetchFault _ _ _ result | unknown _ _ _ _ _ result => rw [result]; exact Seconds.le_add _ s.input.dt
  | run _ _ _ _ _ _ _ executed result =>
    rw [result, endCall_tacc, exec_tacc executed]
    exact Seconds.le_add _ s.input.dt
  | load _ _ _ result | loadByte _ _ _ _ result | reset _ _ result | halted _ _ result =>
    rw [result]; exact Seconds.le_refl _

/-- Settles O23: no instruction touches TACC or the configuration, so only timer updates count. -/
theorem elapsedTimeOnlyAccumulates : Obligations.ElapsedTimeOnlyAccumulates := by
  intro s t h
  refine ⟨step_cfg h, step_tacc_le h, ?_⟩
  cases step_cases h with
  | load _ _ call result | loadByte _ _ _ call result | reset _ call result | timerUpdate _ _ call result =>
    rw [call, result]; rfl
  | halted call | fetchFault call | unknown _ call | run _ _ _ call =>
    obtain empty | ⟨inp, rest, pending⟩ := nextIsTick_iff.1 call
    · rw [empty]; exact tick_tacc call h
    · rw [pending]; exact tick_tacc call h

/-! ### The frame buffer, the registers, I and the stack -/

/-- Settles O50: by the executed instruction, since a step that executes none keeps the buffer. -/
theorem onlyDisplayInstructionsChangeFrame : Obligations.OnlyDisplayInstructionsChangeFrame := by
  intro s t yy xx h changed
  obtain ⟨i, u, executes, executed, rfl⟩ | kept := step_executes_or_keeps h
  · obtain same | display := exec_fb executed
    · exact absurd (congrArg (Frame.pixel · yy xx) same) changed
    · exact executes.display_iff.2 display
  · exact absurd (congrArg (Frame.pixel · yy xx) kept.fb) changed

/-- Settles O52: by the executed instruction, since a step that executes none keeps the registers. -/
theorem registersChangeOnlyByWriters : Obligations.RegistersChangeOnlyByWriters := by
  intro s t r h changed
  obtain ⟨i, u, executes, executed, rfl⟩ | kept := step_executes_or_keeps h
  · exact ⟨i, executes, exec_reg executed changed⟩
  · exact absurd (by rw [State.reg, State.reg, kept.v]) changed

/-- R22. -/
theorem step_index (h : step s = .next t) (changed : t.i ≠ s.i) :
    (∃ addr, s.Executes (.ldI addr)) ∨ ∃ x, s.Executes (.ldF x) := by
  obtain ⟨i, u, executes, executed, rfl⟩ | kept := step_executes_or_keeps h
  · obtain same | ⟨addr, rfl⟩ | ⟨x, rfl⟩ := exec_index executed
    · exact absurd same changed
    · exact .inl ⟨addr, executes⟩
    · exact .inr ⟨x, executes⟩
  · exact absurd kept.i changed

/-- R24, R135. -/
theorem step_stack (h : step s = .next t) (changed : t.sp ≠ s.sp ∨ t.stack ≠ s.stack) :
    s.Executes .ret ∨ (∃ addr, s.Executes (.call addr)) ∨ ∃ rest, s.calls = .reset :: rest := by
  obtain ⟨i, u, executes, executed, rfl⟩ | kept := step_executes_or_keeps h
  · cases exec_stack executed with
    | kept sp stack => exact absurd changed (not_or.2 ⟨not_not.2 sp, not_not.2 stack⟩)
    | popped isRet => exact .inl (isRet ▸ executes)
    | pushed addr isCall => exact .inr (.inl ⟨addr, isCall ▸ executes⟩)
  · obtain sp | ⟨-, reset⟩ := kept.sp
    · exact absurd changed (not_or.2 ⟨not_not.2 sp, not_not.2 kept.stack⟩)
    · exact .inr (.inr reset)

/-- Settles O53: the two clauses are `step_index` and `step_stack`. -/
theorem indexAndStackHaveFewWriters : Obligations.IndexAndStackHaveFewWriters :=
  fun _ _ h => ⟨step_index h, step_stack h⟩

/-! ### Free stack slots stay clear -/

theorem step_vacatedClear (h : step s = .next t) (hs : s.VacatedClear)
    (noCut : ∀ rest, s.calls = .reset :: rest → s.sp = 0) : t.VacatedClear := by
  obtain ⟨i, u, -, executed, rfl⟩ | kept := step_executes_or_keeps h
  · have clear : u.VacatedClear := exec_vacatedClear executed hs
    exact clear
  · have sp : t.sp = s.sp := by
      obtain sp | ⟨sp, rest, call⟩ := kept.sp
      · exact sp
      · rw [sp, noCut rest call]
    intro j hj
    rw [kept.stack]
    exact hs j (sp ▸ hj)

/-- Settles O54: the base case and the step of the invariant. -/
theorem freeSlotsStayClear : Obligations.FreeSlotsStayClear :=
  ⟨construct_vacatedClear, fun _ _ hs noCut h => step_vacatedClear h hs noCut⟩

/-! ### Construction and the reset operation -/

theorem construct_reg (c : Config) (r : Nibble) : (State.construct c).reg r = 0 :=
  Vector.getElem_replicate r.isLt

theorem construct_peek (c : Config) (a : Nat) : (State.construct c).peek a = initByte c a := rfl

theorem initByte_font (c : Config) {a : Nat} (h : a < 80) : initByte c a = c.font[a] := dif_pos h

theorem initByte_above (c : Config) {a : Nat} (h : 80 ≤ a) : initByte c a = 0 := dif_neg (by omega)

/-- Settles O44: each field of `State.construct`, memory by its contents at construction. -/
theorem constructionValues : Obligations.ConstructionValues := by
  rintro c s rfl
  refine ⟨construct_reg c, rfl, rfl, List.length_replicate, fun a ha => List.eq_of_mem_replicate ha, rfl, rfl,
    Frame.pixel_blank, rfl, rfl, addr_setWidth_toNat _, fun a h => ?_, fun a h => ?_⟩
  · rw [construct_peek, initByte_font c h]
  · rw [construct_peek, initByte_above c h]

/-- R43, R202: the reset operation and the end of its call leave every part but the stack pointer's and the call's. -/
theorem resetPc_endCall_frame (s : State) : UnchangedBut [.stack, .outside] s s.resetPc.endCall := by
  intro p hp
  cases p with
  | stack | outside => simp at hp
  | elapsed => exact ⟨rfl, rfl⟩
  | regs | memory => exact fun _ => rfl
  | frame => exact fun _ _ => rfl
  | index | delay | dirty | fault => rfl

theorem step_of_reset {rest : List DriverCall} (call : s.calls = .reset :: rest) :
    step s = .next s.resetPc.endCall := by
  simp [step, nextCall, call]

/-- Settles O46: the step is `State.resetPc`, whose frame is `resetPc_endCall_frame`. -/
theorem resetWritesOnlyPcAndSp : Obligations.ResetWritesOnlyPcAndSp := by
  intro s rest call
  refine ⟨s.resetPc.endCall, step_of_reset call, ?_, rfl, addr_setWidth_toNat _, rfl, rfl, resetPc_endCall_frame s⟩
  rw [endCall_calls, resetPc_calls, call, List.tail_cons]

end Sys2Proof.Machine
end

section
/-! PROOFS. The contents of free stack slots can not be observed (10_state.md R25): `exec`, the tick and the step
commute with a change of slots that no pop will read. -/

namespace Sys2Proof.Machine

open Sys2Proof

/-- The state with other stack slots. -/
def State.withStack (s : State) (slots : List Word) : State := { s with stack := slots }

/-- Two results that differ in free slots only; `exec` and `step` answer no `fault` (assumption 1). -/
inductive SameResult : Result → Result → Prop
  | next {s t : State} (same : SameButFreeSlots s t) : SameResult (.next s) (.next t)
  | refused (r : Refusal) : SameResult (.refused r) (.refused r)

section
variable (s : State) (slots : List Word)

@[simp] theorem withStack_cfg : (s.withStack slots).cfg = s.cfg := rfl
@[simp] theorem withStack_i : (s.withStack slots).i = s.i := rfl
@[simp] theorem withStack_fb : (s.withStack slots).fb = s.fb := rfl
@[simp] theorem withStack_calls : (s.withStack slots).calls = s.calls := rfl
@[simp] theorem withStack_reg (r : Nibble) : (s.withStack slots).reg r = s.reg r := rfl
@[simp] theorem withStack_fetch : (s.withStack slots).fetch = s.fetch := rfl
@[simp] theorem withStack_readBlock (a len : Nat) : (s.withStack slots).readBlock a len = s.readBlock a len := rfl
@[simp] theorem withStack_shiftAmount (x y : Nibble) : (s.withStack slots).shiftAmount x y = s.shiftAmount x y := rfl

theorem withStack_writeBlock (a : Nat) (bs : List Byte) :
    (s.withStack slots).writeBlock a bs = (s.writeBlock a bs).map (·.withStack slots) := by
  unfold State.writeBlock
  split <;> rfl

end

variable {s t : State} {slots : List Word}

/-- The hypothesis under which `s` and `s.withStack slots` differ in free slots only. -/
structure AgreeBelow (s : State) (slots : List Word) : Prop where
  length : s.stack.length = slots.length
  below : ∀ j, j < s.sp → s.stack.getD j 0 = slots.getD j 0

theorem sameButFreeSlots_iff : SameButFreeSlots s t ↔ ∃ slots, t = s.withStack slots ∧ AgreeBelow s slots := by
  constructor
  · rintro ⟨rest, length, below⟩
    refine ⟨t.stack, ?_, length, below⟩
    calc t = ({ t with stack := [] } : State).withStack t.stack := rfl
      _ = ({ s with stack := [] } : State).withStack t.stack := by rw [rest]
      _ = s.withStack t.stack := rfl
  · rintro ⟨slots, rfl, length, below⟩
    exact ⟨rfl, length, below⟩

theorem AgreeBelow.same (h : AgreeBelow s slots) : SameButFreeSlots s (s.withStack slots) :=
  sameButFreeSlots_iff.2 ⟨slots, rfl, h⟩

/-- R130: a pop reads a slot below SP. -/
theorem AgreeBelow.top (h : AgreeBelow s slots) (nonempty : s.sp ≠ 0) : (s.withStack slots).top = s.top :=
  (h.below (s.sp - 1) (by omega)).symm

theorem AgreeBelow.drop (h : AgreeBelow s slots) : AgreeBelow s.drop (slots.set (s.sp - 1) 0) := by
  refine ⟨by simp [h.length], fun j hj => ?_⟩
  have below : j < s.sp := by rw [drop_sp] at hj; omega
  rw [drop_stack, getD_set_zero, getD_set_zero, h.length, h.below j below]

theorem AgreeBelow.push (h : AgreeBelow s slots) (a : Word) : AgreeBelow (s.push a) (slots.set s.sp a) := by
  refine ⟨by simp [h.length], fun j hj => ?_⟩
  have length := h.length
  rw [push_stack, getD_set_zero, getD_set_zero, length]
  split
  · rfl
  · rename_i hne
    by_cases top : j = s.sp
    · rw [List.getD_eq_default _ _ (by omega), List.getD_eq_default _ _ (by omega)]
    · rw [push_sp] at hj
      exact h.below j (by omega)

/-- An update that leaves the stack alone, made on both sides. -/
theorem AgreeBelow.next (h : AgreeBelow s slots) {u : State} (sp : u.sp = s.sp) (stack : u.stack = s.stack) :
    SameResult (.next u) (.next (u.withStack slots)) :=
  .next (AgreeBelow.same ⟨stack ▸ h.length, sp ▸ stack ▸ h.below⟩)

theorem SameResult.ite {c c' : Prop} [Decidable c] [Decidable c'] {a a' b b' : Result} (hc : c ↔ c')
    (yes : c → SameResult a a') (no : ¬ c → SameResult b b') :
    SameResult (if c then a else b) (if c' then a' else b') := by
  by_cases h : c
  · rw [if_pos h, if_pos (hc.1 h)]
    exact yes h
  · rw [if_neg h, if_neg (mt hc.2 h)]
    exact no h

/-! ### The instructions -/

theorem execRet_sameResult (h : AgreeBelow s slots) : SameResult (execRet s) (execRet (s.withStack slots)) := by
  refine .ite Iff.rfl (fun _ => h.next rfl rfl) fun nonempty => ?_
  rw [h.top nonempty]
  exact h.drop.next (u := s.drop.finish (.jump s.top)) rfl rfl

theorem execCall_sameResult (addr : Addr) (h : AgreeBelow s slots) :
    SameResult (execCall addr s) (execCall addr (s.withStack slots)) :=
  .ite Iff.rfl (fun _ => h.next rfl rfl) fun _ =>
    (h.push (s.pc + 2)).next (u := (s.push (s.pc + 2)).finish (.jump (addr.setWidth 16))) rfl rfl

theorem execSknp_sameResult (x : Nibble) (h : AgreeBelow s slots) :
    SameResult (execSknp x s) (execSknp x (s.withStack slots)) :=
  .ite Iff.rfl (fun _ => h.next rfl rfl) fun _ => h.next rfl rfl

theorem execDrw_sameResult (x y n : Nibble) (h : AgreeBelow s slots) :
    SameResult (execDrw x y n s) (execDrw x y n (s.withStack slots)) := by
  simp only [execDrw, withStack_i, withStack_reg, withStack_fb, withStack_readBlock]
  split
  · exact .refused _
  · split
    · exact h.next rfl rfl
    · exact h.next rfl rfl

theorem shiftInto_sameResult (x y : Nibble) (shift : Nat → Byte) (flag : Bool) (h : AgreeBelow s slots) :
    SameResult (shiftInto x y shift flag s) (shiftInto x y shift flag (s.withStack slots)) := by
  simp only [shiftInto, withStack_cfg, withStack_shiftAmount]
  split
  · exact .refused _
  · split
    · exact .refused _
    · exact h.next rfl rfl

theorem execLdB_sameResult (x : Nibble) (h : AgreeBelow s slots) :
    SameResult (execLdB x s) (execLdB x (s.withStack slots)) := by
  simp only [execLdB, withStack_writeBlock, withStack_i, withStack_reg]
  cases written : s.writeBlock s.i.toNat (bcdDigits (s.reg x)) with
  | none => exact h.next rfl rfl
  | some t =>
    obtain ⟨-, rfl⟩ := writeBlock_eq_some.1 written
    exact h.next rfl rfl

theorem execLdVxI_sameResult (x : Nibble) (h : AgreeBelow s slots) :
    SameResult (execLdVxI x s) (execLdVxI x (s.withStack slots)) := by
  simp only [execLdVxI, withStack_i, withStack_readBlock]
  split
  · exact h.next rfl rfl
  · exact h.next rfl rfl

theorem exec_sameResult (i : Instr) (h : AgreeBelow s slots) : SameResult (exec i s) (exec i (s.withStack slots)) := by
  cases i with
  | ret => exact execRet_sameResult h
  | call addr => exact execCall_sameResult addr h
  | sknp x => exact execSknp_sameResult x h
  | drw x y n => exact execDrw_sameResult x y n h
  | shl x y => exact shiftInto_sameResult x y _ _ h
  | shr x y => exact shiftInto_sameResult x y _ _ h
  | ldB x => exact execLdB_sameResult x h
  | ldVxI x => exact execLdVxI_sameResult x h
  | cls | jp | se | ldImm | addImm | ldI | rnd | ldVxDt | ldDtVx | ldF => exact h.next rfl rfl

/-! ### The tick and the step -/

theorem fetchAndRun_sameResult (h : AgreeBelow s slots) :
    SameResult (fetchAndRun s) (fetchAndRun (s.withStack slots)) := by
  simp only [fetchAndRun, withStack_fetch]
  split
  · exact h.next rfl rfl
  · split
    · exact h.next rfl rfl
    · exact exec_sameResult _ h

theorem endOutcome_sameResult {r r' : Result} (h : SameResult r r') : SameResult (endOutcome r) (endOutcome r') := by
  cases h with
  | next same =>
    obtain ⟨slots, rfl, h⟩ := sameButFreeSlots_iff.1 same
    exact h.next rfl rfl
  | refused r => exact .refused r

theorem tick_sameResult (h : AgreeBelow s slots) : SameResult (tick s) (tick (s.withStack slots)) :=
  .ite Iff.rfl (fun _ => h.next rfl rfl) fun _ =>
    endOutcome_sameResult (fetchAndRun_sameResult (s := s.beginTick) ⟨h.length, h.below⟩)

/-- Case by case as in `nextCall`; a reset leaves no slot below SP. -/
theorem step_sameResult (h : AgreeBelow s slots) : SameResult (step s) (step (s.withStack slots)) := by
  simp only [step, nextCall, withStack_calls]
  split
  next => exact h.next rfl rfl
  next => exact h.next rfl rfl
  next => exact .next (AgreeBelow.same ⟨h.length, fun j hj => absurd hj (Nat.not_lt_zero j)⟩)
  next => exact h.next rfl rfl
  next => exact tick_sameResult h
  next => exact tick_sameResult h

/-- Settles O55: the step commutes with a change of the slots from SP on. -/
theorem freeSlotsAreUnobservable : Obligations.FreeSlotsAreUnobservable := by
  intro s t same
  obtain ⟨slots, rfl, agree⟩ := sameButFreeSlots_iff.1 same
  have results := step_sameResult agree
  refine ⟨fun s' hs => ?_, fun r hr => ?_⟩
  · rw [hs] at results
    generalize step (s.withStack slots) = result at results
    cases results with
    | next same => exact ⟨_, rfl, same⟩
  · rw [hr] at results
    generalize step (s.withStack slots) = result at results
    cases results
    rfl

end Sys2Proof.Machine
end

section
/-! PROOFS. Memory (20_memory.md): the byte order of the fetch (R53), code that LD B stores (R64), and who writes memory
(R67). -/

namespace Sys2Proof.Machine

open Sys2Proof

variable {s t : State} {i : Instr}

/-! ### The fetch -/

/-- R53: the byte at the lower address is the more significant one. -/
theorem wordOfBytes_toNat (hi lo : Byte) : (wordOfBytes hi lo).toNat = hi.toNat * 256 + lo.toNat := by
  rw [wordOfBytes, BitVec.toNat_append, ← Nat.shiftLeft_add_eq_or_of_lt lo.isLt, Nat.shiftLeft_eq]

theorem fetch_of_lt (h : s.pc.toNat + 1 < memSize) :
    s.fetch = some (wordOfBytes (s.peek s.pc.toNat) (s.peek (s.pc.toNat + 1))) :=
  fetch_eq_some.2 ⟨h, rfl⟩

/-- R100: a tick of a running core goes on to the fetch. -/
theorem step_of_running_tick (call : s.nextIsTick = true) (running : s.fault = none) :
    step s = endOutcome (fetchAndRun s.beginTick) := by
  rw [step_of_tick call, tick, State.halted, running]
  rfl

/-- R174: a fetch that fails ends the tick with its fault. -/
theorem step_of_fetch_none (call : s.nextIsTick = true) (running : s.fault = none) (fetched : s.fetch = none) :
    step s = .next (s.beginTick.raise .fetchOutOfBounds 0).endCall := by
  rw [step_of_running_tick call running, fetchAndRun, beginTick_fetch, fetched]
  rfl

/-- Settles O10: the two sides of the fetch's bound, where it answers a word and where the tick takes its fault. -/
theorem fetchIsBigEndian : Obligations.FetchIsBigEndian := by
  refine ⟨fun s inside => ⟨_, fetch_of_lt inside, wordOfBytes_toNat _ _⟩, fun s outside call running => ?_⟩
  exact ⟨_, step_of_fetch_none call running (fetch_eq_none.2 outside), rfl⟩

/-! ### Code that LD B stores -/

theorem pokes_peek_offset (h : s.Sorted) (a j : Nat) (bs : List Byte) :
    (s.pokes a bs).peek (a + j) = bs.getD j (s.peek (a + j)) := by
  rw [pokes_peek h, if_pos (Nat.le_add_right a j), Nat.add_sub_cancel_left]

/-- R152: inside memory LD B completes. -/
theorem execLdB_of_bound {x : Nibble} (bound : s.i.toNat + 3 ≤ memSize) :
    execLdB x s = .next ((s.pokes s.i.toNat (bcdDigits (s.reg x))).finish .next) := by
  rw [execLdB, writeBlock_eq_some.2 ⟨bound, rfl⟩]

/-- R152: what the addresses from `a` on read as once the digits are stored there. -/
theorem pokes_bcdDigits_peek (sorted : s.Sorted) (a j : Nat) (b : Byte) :
    ((s.pokes a (bcdDigits b)).peek (a + j)).toNat =
      [b.toNat / 100, b.toNat / 10 % 10, b.toNat % 10].getD j (s.peek (a + j)).toNat := by
  rw [pokes_peek_offset sorted, ← bcdDigits_toNat, List.getD_map]

/-- Settles O57: after LD B the program counter is I, where the hundreds digit lies, with the tens digit behind it. -/
theorem storedCodeIsFetchedNext : Obligations.StoredCodeIsFetchedNext := by
  intro x s wf bound behind
  obtain ⟨sorted, -⟩ := wf
  have pc : (s.pc + 2).toNat = s.i.toNat := by bv_omega
  have hundreds := pokes_bcdDigits_peek sorted s.i.toNat 0 (s.reg x)
  have tens := pokes_bcdDigits_peek sorted s.i.toNat 1 (s.reg x)
  refine ⟨_, _, execLdB_of_bound bound, fetch_of_lt ?_, ?_⟩
  · show (s.pc + 2).toNat + 1 < memSize
    omega
  · rw [wordOfBytes_toNat, finish_peek, finish_peek, finish_pc, nextPc, pokes_pc, pc]
    exact congrArg₂ (· * 256 + ·) hundreds tens

/-! ### Who writes memory -/

/-- A block write changes a byte only inside the block. -/
theorem pokes_changes {a k : Nat} {bs : List Byte} (sorted : s.Sorted) (h : (s.pokes a bs).peek k ≠ s.peek k) :
    a ≤ k ∧ k < a + bs.length := by
  rw [pokes_peek sorted] at h
  by_contra outside
  refine h (ite_eq_right_iff.2 fun le => List.getD_eq_default _ _ ?_)
  omega

/-- R201: Load writes from PROG_BASE upward and drops what is beyond memory. -/
theorem load_changes {k : Nat} {bytes : List Byte} (sorted : s.Sorted) (h : (s.load bytes).peek k ≠ s.peek k) :
    s.cfg.progBase.toNat ≤ k ∧ k < memSize := by
  have ⟨low, high⟩ := pokes_changes sorted h
  have base : s.cfg.progBase.toNat < memSize := s.cfg.progBase.isLt
  rw [List.length_take] at high
  omega

/-- R210: a write of the load port changes a byte only at its address, and only from PROG_BASE upward. -/
theorem loadByte_changes {addr : Addr} {b : Byte} {k : Nat} (sorted : s.Sorted)
    (h : (s.loadByte addr b).peek k ≠ s.peek k) : s.cfg.progBase.toNat ≤ addr.toNat ∧ k = addr.toNat := by
  by_contra other
  exact h (by rw [loadByte_peek sorted, if_neg other])

/-- R67: the only store instruction is LD B. -/
theorem exec_peek {k : Nat} (h : exec i s = .next t) (sorted : s.Sorted) (changed : t.peek k ≠ s.peek k) :
    (∃ x, i = .ldB x) ∧ s.i.toNat ≤ k ∧ k ≤ s.i.toNat + 2 ∧ k < memSize := by
  cases exec_cases h with
  | ldB x bound =>
    have ⟨low, high⟩ := pokes_changes sorted changed
    rw [bcdDigits_length] at high
    exact ⟨⟨x, rfl⟩, low, by omega, by omega⟩
  | _ => exact absurd rfl changed

/-- Settles O51: of the steps, only Load, the load port and an executed instruction write memory, and of the
instructions only LD B. -/
theorem onlyDigitsAndLoadWriteMemory : Obligations.OnlyDigitsAndLoadWriteMemory := by
  intro s t a wf h changed
  obtain ⟨sorted, -⟩ := wf
  cases step_cases h with
  | load bytes rest call result =>
    subst result
    exact .inr ⟨.inl ⟨bytes, rest, call⟩, load_changes sorted changed⟩
  | loadByte addr b rest call result =>
    subst result
    obtain ⟨base, rfl⟩ := loadByte_changes sorted changed
    exact .inr ⟨.inr ⟨addr, b, rest, call, rfl⟩, base, addr.isLt⟩
  | run op i u call running fetched decoded executed result =>
    subst result
    obtain ⟨⟨x, rfl⟩, range⟩ := exec_peek executed sorted changed
    exact .inl ⟨⟨x, call, running, op, fetched, decoded⟩, range⟩
  | reset _ _ result | timerUpdate _ _ _ result | halted _ _ result | fetchFault _ _ _ result
  | unknown _ _ _ _ _ result => subst result; exact absurd rfl changed

end Sys2Proof.Machine
end

section
/-! SUPPORT. The opcode map as a set of rows (30_encoding.md R84 to R86): two rows whose patterns disagree on a bit that
both masks name are never matched by one word, so decoding is a statement about the rows alone, not about their order. -/

namespace Sys2Proof

/-- The patterns of two rows disagree on a bit that both masks name. -/
abbrev OpcodeRow.Clash (r r' : OpcodeRow) : Prop := r.pattern &&& r'.mask ≠ r'.pattern &&& r.mask

variable {rows : List OpcodeRow} {r r' : OpcodeRow} {w : Word} {i : Instr}

theorem OpcodeRow.matches_iff : r.matches w = true ↔ w &&& r.mask = r.pattern := beq_iff_eq

theorem OpcodeRow.Clash.not_both_match (clash : r.Clash r') (h : r.matches w = true) : ¬ r'.matches w = true := by
  rw [OpcodeRow.matches_iff] at h ⊢
  rintro h'
  exact clash (by rw [← h, ← h']; ac_rfl)

theorem opcodeTable_pairwise_clash : opcodeTable.Pairwise OpcodeRow.Clash := by decide

/-- One matching row at most, as an equation between rows. -/
theorem row_unique (distinct : rows.Pairwise OpcodeRow.Clash) (hr : r ∈ rows) (hr' : r' ∈ rows)
    (h : r.matches w = true) (h' : r'.matches w = true) : r = r' := by
  have symm : Std.Symm OpcodeRow.Clash := ⟨fun _ _ => Ne.symm⟩
  by_contra ne
  have clash : r.Clash r' := distinct.forall hr hr' ne
  exact clash.not_both_match h h'

/-- One matching row at most, as a count. -/
theorem length_filter_matches_le_one (distinct : rows.Pairwise OpcodeRow.Clash) (w : Word) :
    (rows.filter (·.matches w)).length ≤ 1 := by
  have clashing := distinct.filter (·.matches w)
  have matching : ∀ r ∈ rows.filter (·.matches w), r.matches w = true := fun r hr => (List.mem_filter.1 hr).2
  generalize rows.filter (·.matches w) = found at clashing matching
  match found with
  | [] | [_] => simp
  | r :: r' :: _ =>
    have clash : r.Clash r' := List.rel_of_pairwise_cons clashing (by simp)
    exact absurd (matching r' (by simp)) (clash.not_both_match (matching r (by simp)))

theorem mem_and_matches_of_find? (found : rows.find? (·.matches w) = some r) : r ∈ rows ∧ r.matches w = true :=
  ⟨List.mem_of_find?_eq_some found, List.find?_some (p := fun r : OpcodeRow => r.matches w) found⟩

/-- Decoding with rows that clash: membership decides, not order. -/
theorem decodeWith_eq_some_iff (distinct : rows.Pairwise OpcodeRow.Clash) :
    decodeWith rows w = some i ↔ ∃ r ∈ rows, r.matches w = true ∧ r.build w = i := by
  rw [decodeWith, Option.map_eq_some_iff]
  constructor
  · rintro ⟨r, found, built⟩
    obtain ⟨hr, h⟩ := mem_and_matches_of_find? found
    exact ⟨r, hr, h, built⟩
  · rintro ⟨r, hr, h, built⟩
    have some_row : (rows.find? (·.matches w)).isSome = true := List.find?_isSome.2 ⟨r, hr, h⟩
    obtain ⟨r', found⟩ := Option.isSome_iff_exists.1 some_row
    obtain ⟨hr', h'⟩ := mem_and_matches_of_find? found
    exact ⟨r, row_unique distinct hr' hr h' h ▸ found, built⟩

theorem decode_eq_some_iff : decode w = some i ↔ ∃ r ∈ opcodeTable, r.matches w = true ∧ r.build w = i :=
  decodeWith_eq_some_iff opcodeTable_pairwise_clash

theorem decodeWith_perm {rows' : List OpcodeRow} (perm : rows'.Perm rows) (distinct : rows.Pairwise OpcodeRow.Clash)
    (w : Word) : decodeWith rows' w = decodeWith rows w := by
  have distinct' : rows'.Pairwise OpcodeRow.Clash := (perm.pairwise_iff Ne.symm).2 distinct
  ext i
  simp only [decodeWith_eq_some_iff distinct, decodeWith_eq_some_iff distinct', perm.mem_iff]

/-- Settles O5: the rows clash pairwise. -/
theorem opcodeRowsDisjoint : Obligations.OpcodeRowsDisjoint :=
  ⟨rfl, length_filter_matches_le_one opcodeTable_pairwise_clash,
    fun _ perm => decodeWith_perm perm opcodeTable_pairwise_clash⟩

end Sys2Proof
end

section
/-! SUPPORT. The three shapes of a word (30_encoding.md R81, R82) and its fields: each field of an assembled word, a word
assembled from its fields, and an assembled word as the OR of shifted fields (R92). -/

namespace Sys2Proof

/-! ### The fields of an assembled word -/

section Fields

variable (n0 x y n : Nibble) (kk : Byte) (addr : Addr)

@[simp] theorem opN0_encodeNnn : opN0 (encodeNnn n0 addr) = n0 := BitVec.extractLsb'_append_eq_left

@[simp] theorem opAddr_encodeNnn : opAddr (encodeNnn n0 addr) = addr := BitVec.extractLsb'_append_eq_right

@[simp] theorem opN0_encodeXkk : opN0 (encodeXkk n0 x kk) = n0 :=
  (BitVec.extractLsb'_append_eq_of_le (by decide)).trans BitVec.extractLsb'_append_eq_left

@[simp] theorem opX_encodeXkk : opX (encodeXkk n0 x kk) = x :=
  (BitVec.extractLsb'_append_eq_of_le (by decide)).trans BitVec.extractLsb'_append_eq_right

@[simp] theorem opKk_encodeXkk : opKk (encodeXkk n0 x kk) = kk := BitVec.extractLsb'_append_eq_right

/-- Splitting `kk` into `y` and `n`. -/
theorem encodeXyn_eq_encodeXkk : encodeXyn n0 x y n = encodeXkk n0 x (y ++ n) := by
  rw [encodeXyn, encodeXkk, BitVec.append_assoc (x₁ := n0 ++ x)]; rfl

@[simp] theorem opN0_encodeXyn : opN0 (encodeXyn n0 x y n) = n0 := by rw [encodeXyn_eq_encodeXkk, opN0_encodeXkk]

@[simp] theorem opX_encodeXyn : opX (encodeXyn n0 x y n) = x := by rw [encodeXyn_eq_encodeXkk, opX_encodeXkk]

@[simp] theorem opY_encodeXyn : opY (encodeXyn n0 x y n) = y :=
  (BitVec.extractLsb'_append_eq_of_le (by decide)).trans BitVec.extractLsb'_append_eq_right

@[simp] theorem opN_encodeXyn : opN (encodeXyn n0 x y n) = n := BitVec.extractLsb'_append_eq_right

/-! ### An assembled word as an OR -/

theorem encodeNnn_eq_or : encodeNnn n0 addr = n0.setWidth 16 <<< 12 ||| addr.setWidth 16 :=
  (BitVec.setWidth_eq _).symm.trans BitVec.setWidth_append_eq_shiftLeft_setWidth_or

theorem encodeXkk_eq_or : encodeXkk n0 x kk = n0.setWidth 16 <<< 12 ||| x.setWidth 16 <<< 8 ||| kk.setWidth 16 :=
  (BitVec.setWidth_eq _).symm.trans BitVec.setWidth_append_append_eq_shiftLeft_setWidth_or

theorem encodeXyn_eq_or : encodeXyn n0 x y n =
    n0.setWidth 16 <<< 12 ||| x.setWidth 16 <<< 8 ||| y.setWidth 16 <<< 4 ||| n.setWidth 16 :=
  (BitVec.setWidth_eq _).symm.trans BitVec.setWidth_append_append_append_eq_shiftLeft_setWidth_or

/-- Format X: `kk` is fixed, so it joins the fixed bits. -/
theorem encodeXkk_eq_fixed_or : encodeXkk n0 x kk =
    (n0.setWidth 16 <<< 12 ||| kk.setWidth 16) ||| x.setWidth 16 <<< 8 := by
  rw [encodeXkk_eq_or]; ac_rfl

/-- Format XY: `n` is fixed, so it joins the fixed bits. -/
theorem encodeXyn_eq_fixed_or : encodeXyn n0 x y n =
    (n0.setWidth 16 <<< 12 ||| n.setWidth 16) ||| x.setWidth 16 <<< 8 ||| y.setWidth 16 <<< 4 := by
  rw [encodeXyn_eq_or]; ac_rfl

end Fields

/-- Settles O4: the fixed bits of a row are its fixed fields, shifted to their places. -/
theorem encodeFollowsFormats : Obligations.EncodeFollowsFormats :=
  ⟨rfl, rfl,
    fun addr => ⟨encodeNnn_eq_or _ addr, encodeNnn_eq_or _ addr, encodeNnn_eq_or _ addr⟩,
    fun x kk => ⟨encodeXkk_eq_or _ x kk, encodeXkk_eq_or _ x kk, encodeXkk_eq_or _ x kk, encodeXkk_eq_or _ x kk⟩,
    fun x y n => ⟨encodeXyn_eq_fixed_or _ x y _, encodeXyn_eq_fixed_or _ x y _, encodeXyn_eq_or _ x y n⟩,
    fun x => ⟨encodeXkk_eq_fixed_or _ x _, encodeXkk_eq_fixed_or _ x _, encodeXkk_eq_fixed_or _ x _,
      encodeXkk_eq_fixed_or _ x _, encodeXkk_eq_fixed_or _ x _, encodeXkk_eq_fixed_or _ x _⟩⟩

/-! ### A word assembled from its fields -/

variable (w : Word)

theorem encodeNnn_fields : encodeNnn (opN0 w) (opAddr w) = w :=
  (BitVec.extractLsb'_append_extractLsb'_eq_extractLsb' rfl).trans BitVec.extractLsb'_eq_self

theorem opKk_eq_append : opKk w = opY w ++ opN w :=
  (BitVec.extractLsb'_append_extractLsb'_eq_extractLsb' (start₁ := 0) (len₁ := 4) rfl).symm

theorem opAddr_eq_append : opAddr w = opX w ++ opKk w :=
  (BitVec.extractLsb'_append_extractLsb'_eq_extractLsb' (start₁ := 0) (len₁ := 8) rfl).symm

theorem encodeXkk_fields : encodeXkk (opN0 w) (opX w) (opKk w) = w := by
  conv_rhs => rw [← encodeNnn_fields w, opAddr_eq_append]
  rw [encodeXkk, encodeNnn, BitVec.append_assoc]; rfl

theorem encodeXyn_fields : encodeXyn (opN0 w) (opX w) (opY w) (opN w) = w := by
  rw [encodeXyn_eq_encodeXkk, ← opKk_eq_append, encodeXkk_fields]

/-- The two bytes of a word make the word (R53). -/
@[simp] theorem wordOfBytes_bytesOfWord : wordOfBytes (w.extractLsb' 8 8) (w.extractLsb' 0 8) = w :=
  (BitVec.extractLsb'_append_extractLsb'_eq_extractLsb' rfl).trans BitVec.extractLsb'_eq_self

end Sys2Proof
end

section
/-! SUPPORT. Decoding and encoding are inverse to each other (30_encoding.md R92), so the legal words (R87) are the
encodings. -/

namespace Sys2Proof

open Laws

variable {w m p : Word} {i : Instr}

/-! ### Decode after encode -/

/-- Every instruction has the facts of the family `WordOfRow`. -/
theorem wordOfRow (i : Instr) : WordOfRow.Statement i := by
  cases i
  exacts [WordOfRow.cls, WordOfRow.ret, WordOfRow.jp _, WordOfRow.call _, WordOfRow.se _ _, WordOfRow.ldImm _ _,
    WordOfRow.addImm _ _, WordOfRow.shl _ _, WordOfRow.shr _ _, WordOfRow.ldI _, WordOfRow.drw _ _ _, WordOfRow.sknp _,
    WordOfRow.rnd _ _, WordOfRow.ldVxDt _, WordOfRow.ldDtVx _, WordOfRow.ldF _, WordOfRow.ldB _, WordOfRow.ldVxI _]

/-- The row of an instruction reads every operand back from the encoding. -/
theorem build_rowOf_encode (i : Instr) :
    opcodeTable[WordOfRow.rowOf i]?.map (fun r => r.build (encode i)) = some i := by
  cases i <;> simp [opcodeTable, WordOfRow.rowOf, encode]

/-- R92. -/
@[simp] theorem decode_encode (i : Instr) : decode (encode i) = some i := by
  obtain ⟨-, -, matched⟩ := wordOfRow i
  obtain ⟨r, row, hmatch⟩ := Option.map_eq_some_iff.1 matched
  have built := build_rowOf_encode i
  rw [row] at built
  exact decode_eq_some_iff.2 ⟨r, List.mem_of_getElem? row, hmatch, Option.some.inj built⟩

/-- R92, on bytes in memory order (R53, R80). -/
theorem decodeBytes_encodeBytes (i : Instr) (rest : List Byte) : decodeBytes (encodeBytes i ++ rest) = .ok (i, rest) := by
  simp [encodeBytes, bytesOfWord, decodeBytes]

/-- Settles O2: the instruction's own row matches its encoding, and no other row does. -/
theorem decodeInvertsEncode : Obligations.DecodeInvertsEncode :=
  fun i _ => ⟨decode_encode i, decodeBytes_encodeBytes i⟩

/-! ### Encode after decode -/

section Masks

/-! The bits that a mask names are the pattern's; with the fields that the row reads they are the whole word (R84, R85). -/

variable {n0 n : Nibble} {kk : Byte} (h : w &&& m = p)
include h

/-- A field that the mask names whole is the pattern's. -/
theorem extractLsb'_of_and_eq (start len : Nat) (full : m.extractLsb' start len = BitVec.allOnes len) :
    w.extractLsb' start len = p.extractLsb' start len := by
  rw [← h, BitVec.extractLsb'_and, full, BitVec.and_allOnes]

theorem opN0_of_and_eq (full : opN0 m = 0xF) (hp : opN0 p = n0) : opN0 w = n0 :=
  (extractLsb'_of_and_eq h 12 4 full).trans hp

theorem encodeNnn_of_and_eq (full : opN0 m = 0xF) (hp : opN0 p = n0) : encodeNnn n0 (opAddr w) = w := by
  rw [← opN0_of_and_eq h full hp, encodeNnn_fields]

theorem encodeXkk_of_and_eq (full : opN0 m = 0xF) (hp : opN0 p = n0) : encodeXkk n0 (opX w) (opKk w) = w := by
  rw [← opN0_of_and_eq h full hp, encodeXkk_fields]

theorem encodeXyn_of_and_eq (full : opN0 m = 0xF) (hp : opN0 p = n0) :
    encodeXyn n0 (opX w) (opY w) (opN w) = w := by
  rw [← opN0_of_and_eq h full hp, encodeXyn_fields]

/-- Format X. -/
theorem encodeXkk_of_and_eq_fixed (full : opN0 m = 0xF ∧ opKk m = 0xFF) (hp : opN0 p = n0 ∧ opKk p = kk) :
    encodeXkk n0 (opX w) kk = w := by
  have hkk : opKk w = kk := (extractLsb'_of_and_eq h 0 8 full.2).trans hp.2
  rw [← hkk, encodeXkk_of_and_eq h full.1 hp.1]

/-- Format XY. -/
theorem encodeXyn_of_and_eq_fixed (full : opN0 m = 0xF ∧ opN m = 0xF) (hp : opN0 p = n0 ∧ opN p = n) :
    encodeXyn n0 (opX w) (opY w) n = w := by
  have hn : opN w = n := (extractLsb'_of_and_eq h 0 4 full.2).trans hp.2
  rw [← hn, encodeXyn_of_and_eq h full.1 hp.1]

end Masks

/-- The row that a word matches builds the instruction that the word encodes. -/
theorem encode_build {r : OpcodeRow} (hr : r ∈ opcodeTable) (h : r.matches w = true) : encode (r.build w) = w := by
  rw [OpcodeRow.matches_iff] at h
  revert r
  simp only [opcodeTable, List.forall_mem_cons, encode]
  refine ⟨fun h => ?cls, fun h => ?ret, fun h => ?jp, fun h => ?call, fun h => ?se, fun h => ?ldImm, fun h => ?addImm,
    fun h => ?shl, fun h => ?shr, fun h => ?ldI, fun h => ?drw, fun h => ?sknp, fun h => ?rnd, fun h => ?ldVxDt,
    fun h => ?ldDtVx, fun h => ?ldF, fun h => ?ldB, fun h => ?ldVxI, nofun⟩
  case cls | ret => exact h.symm.trans BitVec.and_allOnes
  case jp | call | ldI => exact encodeNnn_of_and_eq h rfl rfl
  case se | ldImm | addImm | rnd => exact encodeXkk_of_and_eq h rfl rfl
  case drw => exact encodeXyn_of_and_eq h rfl rfl
  case shl | shr => exact encodeXyn_of_and_eq_fixed h ⟨rfl, rfl⟩ ⟨rfl, rfl⟩
  case sknp | ldVxDt | ldDtVx | ldF | ldB | ldVxI => exact encodeXkk_of_and_eq_fixed h ⟨rfl, rfl⟩ ⟨rfl, rfl⟩

/-- Settles O3: the row that matches a word builds an instruction whose encoding is the word. -/
theorem encodeInvertsDecode : Obligations.EncodeInvertsDecode := by
  intro w i h
  obtain ⟨r, hr, hmatch, rfl⟩ := decode_eq_some_iff.1 h
  exact encode_build hr hmatch

/-! ### The legal words -/

theorem decode_isSome_iff : (decode w).isSome = true ↔ ∃ i, encode i = w := by
  rw [Option.isSome_iff_exists]
  constructor
  · rintro ⟨i, h⟩
    exact ⟨i, encodeInvertsDecode w i h⟩
  · rintro ⟨i, rfl⟩
    exact ⟨i, decode_encode i⟩

theorem exists_encode_of_n0 (h : opN0 w ∈ [0x1, 0x2, 0x3, 0x6, 0x7, 0xA, 0xC, 0xD]) : ∃ i, encode i = w := by
  have nnn := encodeNnn_fields w
  have xkk := encodeXkk_fields w
  have xyn := encodeXyn_fields w
  simp only [List.mem_cons, List.not_mem_nil, or_false] at h
  obtain h | h | h | h | h | h | h | h := h <;> rw [h] at nnn xkk xyn
  exacts [⟨.jp _, nnn⟩, ⟨.call _, nnn⟩, ⟨.se _ _, xkk⟩, ⟨.ldImm _ _, xkk⟩, ⟨.addImm _ _, xkk⟩, ⟨.ldI _, nnn⟩,
    ⟨.rnd _ _, xkk⟩, ⟨.drw _ _ _, xyn⟩]

theorem exists_encode_of_shift (h0 : opN0 w = 0x8) (h : opN w ∈ [0x6, 0xE]) : ∃ i, encode i = w := by
  have xyn := encodeXyn_fields w
  simp only [List.mem_cons, List.not_mem_nil, or_false] at h
  obtain h | h := h <;> rw [h0, h] at xyn
  exacts [⟨.shr _ _, xyn⟩, ⟨.shl _ _, xyn⟩]

theorem exists_encode_of_key (h0 : opN0 w = 0xE) (h : opKk w = 0xA1) : ∃ i, encode i = w := by
  have xkk := encodeXkk_fields w
  rw [h0, h] at xkk
  exact ⟨.sknp _, xkk⟩

theorem exists_encode_of_misc (h0 : opN0 w = 0xF) (h : opKk w ∈ [0x07, 0x15, 0x29, 0x33, 0x65]) :
    ∃ i, encode i = w := by
  have xkk := encodeXkk_fields w
  simp only [List.mem_cons, List.not_mem_nil, or_false] at h
  obtain h | h | h | h | h := h <;> rw [h0, h] at xkk
  exacts [⟨.ldVxDt _, xkk⟩, ⟨.ldDtVx _, xkk⟩, ⟨.ldF _, xkk⟩, ⟨.ldB _, xkk⟩, ⟨.ldVxI _, xkk⟩]

/-- Settles O6: a word is legal exactly when it is an encoding, and each class of R87 is that of some rows. -/
theorem legalWordsByClass : Obligations.LegalWordsByClass := by
  intro w
  rw [decode_isSome_iff]
  constructor
  · rintro ⟨i, rfl⟩
    cases i with
    | cls => exact .inl rfl
    | ret => exact .inr (.inl rfl)
    | _ => simp [encode]
  · rintro (rfl | rfl | h | ⟨h0, h⟩ | ⟨h0, h⟩ | ⟨h0, h⟩)
    · exact ⟨.cls, rfl⟩
    · exact ⟨.ret, rfl⟩
    · exact exists_encode_of_n0 h
    · exact exists_encode_of_shift h0 h
    · exact exists_encode_of_key h0 h
    · exact exists_encode_of_misc h0 h

end Sys2Proof
end

section
/-! PROOFS. The tick and its dispatch (40_tick_and_dispatch.md): what each kind of call answers (R100, R105, R106), where
every instruction leaves PC (R104), and the fetch of a placed word (R101). -/

namespace Sys2Proof.Machine

open Sys2Proof

variable {s t : State} {i : Instr}

/-! ### The next PC -/

theorem nextPc_next_toNat {pc : Word} (le : pc.toNat ≤ 0xFFE) : (nextPc pc .next).toNat = pc.toNat + 2 := by
  unfold nextPc
  bv_omega

theorem nextPc_skip_toNat {pc : Word} (le : pc.toNat ≤ 0xFFE) : (nextPc pc .skip).toNat = pc.toNat + 4 := by
  unfold nextPc
  bv_omega

/-- A conditional skip (R133). -/
theorem nextPc_ite_toNat {pc : Word} (le : pc.toNat ≤ 0xFFE) (c : Prop) [Decidable c] :
    (nextPc pc (if c then .skip else .next)).toNat = pc.toNat + (if c then 4 else 2) := by
  split
  · exact nextPc_skip_toNat le
  · exact nextPc_next_toNat le

/-- R104, R180: only an instruction that raises latches a fault, and it leaves PC. -/
theorem exec_pc_of_fault (running : s.fault = none) (h : exec i s = .next t) (faulted : t.fault ≠ none) :
    t.pc = s.pc := by
  cases exec_cases h with
  | raised => rfl
  | _ => exact absurd running faulted

/-- Settles O17: a fault keeps PC (`exec_pc_of_fault`); else PC is `nextPc` of the handler's outcome, which does not wrap
from an address where an instruction can be fetched. -/
theorem programCounterOutcomes : Obligations.ProgramCounterOutcomes := by
  intro i s t pcLe running h
  refine ⟨exec_pc_of_fault running h, fun completed => ?_⟩
  cases exec_cases h with
  | raised => simp at completed
  | ret => rfl
  | jp addr | call addr => exact addr_setWidth_toNat addr
  | se x kk => exact nextPc_ite_toNat pcLe _
  | sknp x =>
    cases key : s.key (s.reg x).toNat with
    | true => simpa [key] using nextPc_next_toNat pcLe
    | false => simpa [key] using nextPc_skip_toNat pcLe
  | _ => exact nextPc_next_toNat pcLe

/-! ### What a step answers -/

/-- R180: a fault is taken by `State.raise` in a next state (assumption 1). -/
theorem exec_ne_fault (i : Instr) (s : State) (cause : Fault) : exec i s ≠ .fault cause := by
  intro h
  cases i with
  | ret | call | sknp | ldB | ldVxI =>
    simp only [exec, execRet, execCall, execSknp, execLdB, execLdVxI] at h
    split at h <;> cases h
  | drw =>
    simp only [exec, execDrw] at h
    split at h
    · cases h
    · split at h <;> cases h
  | shl | shr =>
    simp only [exec, execShl, execShr, shiftInto] at h
    split at h
    · cases h
    · split at h <;> cases h
  | cls | jp | se | ldImm | addImm | ldI | rnd | ldVxDt | ldDtVx | ldF => cases h

theorem exec_next_or_refused (i : Instr) (s : State) : (∃ t, exec i s = .next t) ∨ ∃ r, exec i s = .refused r := by
  cases h : exec i s with
  | next t => exact .inl ⟨t, rfl⟩
  | fault cause => exact absurd h (exec_ne_fault i s cause)
  | refused r => exact .inr ⟨r, rfl⟩

/-- R211: a call that is no tick always completes. -/
theorem step_of_no_tick (call : s.nextIsTick = false) : ∃ t, step s = .next t := by
  cases e : s.calls with
  | nil => simp [State.nextIsTick, e] at call
  | cons c rest =>
    cases c with
    | tick => simp [State.nextIsTick, e, DriverCall.isTick] at call
    | load | loadByte | reset | timerUpdate => exact ⟨_, by rw [step, nextCall, e]⟩

/-- R106. -/
theorem step_of_halted_tick (call : s.nextIsTick = true) (halted : s.fault ≠ none) : step s = .next s.endCall := by
  have isHalted : s.halted = true := Option.isSome_iff_ne_none.2 halted
  rw [step_of_tick call, tick, if_pos isHalted]

/-- R171: a word that does not decode ends the tick with its fault. -/
theorem step_of_decode_none {op : Word} (call : s.nextIsTick = true) (running : s.fault = none)
    (fetched : s.fetch = some op) (decoded : decode op = none) :
    step s = .next (s.beginTick.raise .unknownOpcode op).endCall := by
  simp only [step_of_running_tick call running, fetchAndRun, beginTick_fetch, fetched, decoded, endOutcome]

/-- R100: the step that executes an instruction is that instruction, after the timer update and the DIRTY clear. -/
theorem State.Executes.step_eq (h : s.Executes i) : step s = endOutcome (exec i s.beginTick) := by
  obtain ⟨call, running, op, fetched, decoded⟩ := h
  simp only [step_of_running_tick call running, fetchAndRun, beginTick_fetch, fetched, decoded]

theorem State.Executes.next_or_refused (h : s.Executes i) : (∃ t, step s = .next t) ∨
    ∃ r, exec i s.beginTick = .refused r ∧ step s = .refused r := by
  rw [h.step_eq]
  obtain ⟨t, executed⟩ | ⟨r, refused⟩ := exec_next_or_refused i s.beginTick
  · exact .inl ⟨t.endCall, congrArg endOutcome executed⟩
  · exact .inr ⟨r, refused, congrArg endOutcome refused⟩

/-- A tick of a running core executes an instruction, unless fetch or decode ends it with a fault. -/
theorem running_tick_executes_or_faults (call : s.nextIsTick = true) (running : s.fault = none) :
    (∃ i, s.Executes i) ∨ ∃ t, step s = .next t := by
  cases fetched : s.fetch with
  | none => exact .inr ⟨_, step_of_fetch_none call running fetched⟩
  | some op =>
    cases decoded : decode op with
    | none => exact .inr ⟨_, step_of_decode_none call running fetched decoded⟩
    | some i => exact .inl ⟨i, call, running, op, fetched, decoded⟩

/-- Settles O19: only a tick that executes an instruction can fail to answer a next state, and then by the refusal of
`exec`, which answers no fault. -/
theorem everyStepCompletesOrIsRefused : Obligations.EveryStepCompletesOrIsRefused := by
  intro s
  by_cases call : s.nextIsTick = true
  · by_cases running : s.fault = none
    · obtain ⟨i, executes⟩ | completed := running_tick_executes_or_faults call running
      · exact executes.next_or_refused.imp_right fun ⟨r, refused⟩ => ⟨i, r, executes, refused⟩
      · exact .inl completed
    · exact .inl ⟨_, step_of_halted_tick call running⟩
  · exact .inl (step_of_no_tick (Bool.eq_false_of_not_eq_true call))

/-- Settles O7: `endOutcome` of either outcome of `exec`. -/
theorem stepRunsTheDecodedInstruction : Obligations.StepRunsTheDecodedInstruction := by
  intro s op i call running fetched decoded _
  have run : step s = endOutcome (exec i s.beginTick) :=
    State.Executes.step_eq ⟨call, running, op, fetched, decoded⟩
  exact ⟨fun _ executed => run.trans (congrArg endOutcome executed),
    fun _ refused => run.trans (congrArg endOutcome refused)⟩

/-! ### A halted core -/

/-- The end of a call touches the driver's bookkeeping only. -/
theorem endCall_frame (s : State) : UnchangedBut [.outside] s s.endCall := by
  intro p hp
  cases p with
  | outside => simp at hp
  | stack | elapsed => exact ⟨rfl, rfl⟩
  | regs | memory => exact fun _ => rfl
  | frame => exact fun _ _ => rfl
  | index | delay | dirty | fault => rfl

theorem tickReturn_of_fault {r : FaultRecord} (h : t.fault = some r) : t.tickReturn = .halted r := by
  simp [State.tickReturn, h]

/-- R106: a halted core is never at rest. -/
theorem State.Resting.running (h : s.Resting) : s.fault = none := h.1

/-- Settles O9: a tick of a halted core is the end of its call. -/
theorem haltedTickChangesNothing : Obligations.HaltedTickChangesNothing := by
  intro s r call latched
  have halted : s.fault ≠ none := by simp [latched]
  exact ⟨s.endCall, step_of_halted_tick call halted, tickReturn_of_fault latched, rfl, rfl, endCall_frame s,
    fun resting => halted resting.running⟩

/-! ### A placed word -/

/-- R53, R101: the two bytes of a word, stored at PC, are fetched as that word. -/
theorem pokes_fetch (sorted : s.Sorted) (room : s.pc.toNat + 1 < memSize) (w : Word) :
    (s.pokes s.pc.toNat (bytesOfWord w)).fetch = some w := by
  have hi := pokes_peek_offset sorted s.pc.toNat 0 (bytesOfWord w)
  have lo := pokes_peek_offset sorted s.pc.toNat 1 (bytesOfWord w)
  refine fetch_eq_some.2 ⟨room, ?_⟩
  exact (congrArg₂ wordOfBytes hi lo).trans (wordOfBytes_bytesOfWord w)

theorem nextIsTick_of_dropWhile {calls : List DriverCall} (h : s.calls = calls.dropWhile fun c => !c.isTick) :
    s.nextIsTick = true := by
  cases e : s.calls with
  | nil => simp [State.nextIsTick, e]
  | cons c rest =>
    have head := List.head?_dropWhile_not (fun c : DriverCall => !c.isTick) calls
    simpa [State.nextIsTick, ← h, e] using head

theorem withFetchWord_word (s : State) (w : Word) : s.withFetchWord 16 w.toNat = placeWord s w := by
  rw [State.withFetchWord, Nat.mod_eq_of_lt w.isLt, BitVec.ofNat_toNat, BitVec.setWidth_eq]

theorem placeWord_of_lt (room : s.pc.toNat + 1 < memSize) (w : Word) : placeWord s w =
    State.pokes { s with fault := none, calls := s.calls.dropWhile fun c => !c.isTick } s.pc.toNat (bytesOfWord w) :=
  if_pos room

/-- Settles O8: PC is where the bytes are placed, and the calls in front of the next tick are dropped. -/
theorem placedWordIsFetched : Obligations.PlacedWordIsFetched := by
  intro s w wf room
  obtain ⟨sorted, -⟩ := wf
  rw [withFetchWord_word, placeWord_of_lt room]
  exact ⟨pokes_fetch sorted room w, nextIsTick_of_dropWhile rfl, rfl⟩

end Sys2Proof.Machine
end

section
/-! PROOFS. The display instructions (41_display.md): CLS (R120), DRW with its refusal, fault and effect (R121), and
what follows from two draws (R122). -/

namespace Sys2Proof.Machine

open Sys2Proof

variable {s t u : State} {x y n : Nibble}

/-! ### What the display instructions leave unchanged -/

theorem Part.same_refl (s : State) (p : Part) : Part.same s s p := by
  cases p with
  | stack | elapsed => exact ⟨rfl, rfl⟩
  | outside => exact ⟨rfl, rfl, rfl⟩
  | regs | memory => exact fun _ => rfl
  | frame => exact fun _ _ => rfl
  | index | delay | dirty | fault => rfl

theorem raise_frame (s : State) (cause : Fault) (op : Word) : UnchangedBut [.fault] s (s.raise cause op) := by
  intro p hp
  have refl := Part.same_refl s p
  cases p with
  | fault => simp at hp
  | _ => exact refl

theorem touchFrame_finish_frame (s : State) (f : Frame) (flow : Flow) :
    UnchangedBut [.frame, .dirty] s ((s.touchFrame f).finish flow) := by
  intro p hp
  have refl := Part.same_refl s p
  cases p with
  | frame | dirty => simp at hp
  | _ => exact refl

theorem touchFrame_setFlag_finish_frame (s : State) (f : Frame) (b : Bool) (flow : Flow) :
    UnchangedBut [.regs, .frame, .dirty] s (((s.touchFrame f).setFlag b).finish flow) := by
  intro p hp
  have refl := Part.same_refl s p
  cases p with
  | regs | frame | dirty => simp at hp
  | _ => exact refl

/-- R179, R180. -/
theorem raise_tookFault (s : State) (cause : Fault) (op : Word) : TookFault cause op s (s.raise cause op) :=
  ⟨rfl, rfl, raise_frame s cause op⟩

/-! ### CLS -/

/-- Settles O24: the next state is `s` with the blank frame buffer, by `Frame.pixel_blank` all 0. -/
theorem clearScreenEffect : Obligations.ClearScreenEffect :=
  ⟨rfl, fun s => ⟨(s.touchFrame Frame.blank).finish .next, rfl, fun yy xx _ _ => Frame.pixel_blank yy xx, rfl, rfl,
    touchFrame_finish_frame s Frame.blank .next⟩⟩

/-! ### The outcomes of DRW -/

theorem namesVf_iff : namesVf x y = true ↔ x = 15 ∨ y = 15 := by simp [namesVf]

theorem namesVf_of_ne (hx : x ≠ 15) (hy : y ≠ 15) : namesVf x y = false :=
  Bool.eq_false_iff.2 fun vf => (namesVf_iff.1 vf).elim hx hy

/-- R147. -/
theorem exec_drw_of_vf (vf : x = 15 ∨ y = 15) : exec (.drw x y n) s = .refused .vfOperandOfFlagWriter :=
  if_pos (namesVf_iff.2 vf)

/-- R175. -/
theorem exec_drw_of_outside (hx : x ≠ 15) (hy : y ≠ 15) (outside : memSize < s.i.toNat + n.toNat) :
    exec (.drw x y n) s = .next (s.raise .memoryOutOfBounds (encode (.drw x y n))) := by
  simp [exec, execDrw, namesVf_of_ne hx hy, readBlock_eq_none.2 outside]

theorem exec_drw_of_read {rows : List Byte} (hx : x ≠ 15) (hy : y ≠ 15)
    (read : s.readBlock s.i.toNat n.toNat = some rows) :
    exec (.drw x y n) s = .next
      (((s.touchFrame (drawSprite (s.reg x).toNat (s.reg y).toNat rows s.fb).1).setFlag
        (drawSprite (s.reg x).toNat (s.reg y).toNat rows s.fb).2).finish .next) := by
  simp [exec, execDrw, namesVf_of_ne hx hy, read]

/-! ### The effect of DRW -/

/-- The sprite bit that `DRW Vx, Vy, n` aims at row `yy`, column `xx`. -/
abbrev State.drwBit (s : State) (x y n : Nibble) (yy xx : Nat) : Bool :=
  s.spriteBit (s.reg x).toNat (s.reg y).toNat n.toNat yy xx

/-- A 1 bit of the sprite of `DRW Vx, Vy, n` meets a lit pixel (R121). -/
def State.Collides (s : State) (x y n : Nibble) : Prop :=
  ∃ yy xx, yy < 32 ∧ xx < 64 ∧ s.fb.pixel yy xx = true ∧ s.drwBit x y n yy xx = true

/-- From `s` to `t` the sprite of `DRW Vx, Vy, n` was drawn (R121). -/
structure Drew (x y n : Nibble) (s t : State) : Prop where
  pixel : ∀ yy xx, t.fb.pixel yy xx = (s.fb.pixel yy xx ^^ (decide (yy < 32 ∧ xx < 64) && s.drwBit x y n yy xx))
  flag : ∃ b, t.reg 15 = flagByte b ∧ (b = true ↔ s.Collides x y n)
  others : ∀ r, r ≠ 15 → t.reg r = s.reg r
  dirty : t.dirty = true
  pc : t.pc = s.pc + 2
  frame : UnchangedBut [.regs, .frame, .dirty] s t

theorem Frame.bounds_of_pixel {f : Frame} {yy xx : Nat} (lit : f.pixel yy xx = true) : yy < 32 ∧ xx < 64 := by
  by_contra out
  simp [Frame.pixel_outside f out] at lit

/-- The bits of the rows read from I are the sprite bits. -/
theorem rowsBit_of_read {k : Nat} {rows : List Byte} (read : s.readBlock s.i.toNat k = some rows) (x0 y0 yy xx : Nat) :
    rowsBit x0 y0 rows yy xx = s.spriteBit x0 y0 k yy xx := by
  unfold rowsBit rowBit State.spriteBit
  rw [readBlock_get read]
  by_cases inside : y0 ≤ yy ∧ yy < y0 + k
  · obtain ⟨above, below⟩ := inside
    simp [above, below, show yy - y0 < k by omega]
  · by_cases above : y0 ≤ yy
    · simp [above, show ¬ yy < y0 + k by omega, show ¬ yy - y0 < k by omega]
    · simp [above]

theorem exists_lit_bit_iff_collides :
    (∃ yy xx, s.fb.pixel yy xx = true ∧ s.drwBit x y n yy xx = true) ↔ s.Collides x y n := by
  constructor
  · rintro ⟨yy, xx, lit, bit⟩
    obtain ⟨hyy, hxx⟩ := Frame.bounds_of_pixel lit
    exact ⟨yy, xx, hyy, hxx, lit, bit⟩
  · rintro ⟨yy, xx, -, -, lit, bit⟩
    exact ⟨yy, xx, lit, bit⟩

/-- R121: `drawSprite_spec` on the rows read from I. -/
theorem exec_drw_drew (hx : x ≠ 15) (hy : y ≠ 15) (bound : s.i.toNat + n.toNat ≤ memSize) :
    ∃ t, exec (.drw x y n) s = .next t ∧ Drew x y n s t := by
  obtain ⟨rows, read⟩ : ∃ rows, s.readBlock s.i.toNat n.toNat = some rows := ⟨_, if_pos bound⟩
  obtain ⟨pixel, flag⟩ := drawSprite_spec (s.reg x).toNat (s.reg y).toNat rows s.fb
  simp only [rowsBit_of_read read] at pixel flag
  exact ⟨_, exec_drw_of_read hx hy read, pixel,
    ⟨_, (setFlag_reg _ _ 15).trans (if_pos rfl), flag.trans exists_lit_bit_iff_collides⟩,
    fun r hr => (setFlag_reg _ _ r).trans (if_neg hr), rfl, rfl, touchFrame_setFlag_finish_frame s _ _ _⟩

theorem flagByte_eq_one_iff {b : Bool} : flagByte b = 1 ↔ b = true := by cases b <;> decide

theorem flagByte_eq_zero_iff {b : Bool} : flagByte b = 0 ↔ ¬ b = true := by cases b <;> decide

theorem Drew.vf_eq_one_iff (h : Drew x y n s t) : t.reg 15 = 1 ↔ s.Collides x y n := by
  obtain ⟨b, vf, collides⟩ := h.flag
  rw [vf, flagByte_eq_one_iff, collides]

theorem Drew.vf_eq_zero_iff (h : Drew x y n s t) : t.reg 15 = 0 ↔ ¬ s.Collides x y n := by
  obtain ⟨b, vf, collides⟩ := h.flag
  rw [vf, flagByte_eq_zero_iff, collides]

/-- Settles O25: the three outcomes of DRW, the last by `exec_drw_drew`. -/
theorem drawSpriteEffect : Obligations.DrawSpriteEffect := by
  intro x y n s
  have word := encodeXyn_eq_or 0xD x y n
  refine ⟨word, exec_drw_of_vf, fun hx hy outside => ?_, fun hx hy bound => ?_⟩
  · exact ⟨_, exec_drw_of_outside hx hy outside, word ▸ raise_tookFault s _ (encode (.drw x y n))⟩
  · obtain ⟨t, executed, drew⟩ := exec_drw_drew hx hy bound
    refine ⟨t, executed, fun yy xx hyy hxx => ?_, drew.vf_eq_one_iff.2, drew.vf_eq_zero_iff.2, drew.others,
      drew.dirty, drew.pc, drew.frame⟩
    simpa [hyy, hxx] using drew.pixel yy xx

/-! ### Drawing twice -/

/-- The sprite bits depend on I, memory and the two coordinates only. -/
theorem drwBit_congr (index : t.i = s.i) (memory : ∀ a, t.peek a = s.peek a) (regX : t.reg x = s.reg x)
    (regY : t.reg y = s.reg y) (yy xx : Nat) : t.drwBit x y n yy xx = s.drwBit x y n yy xx := by
  simp only [State.drwBit, State.spriteBit, index, memory, regX, regY]

theorem Drew.index (h : Drew x y n s t) : t.i = s.i := h.frame .index (by decide)

/-- R122: the same sprite is aimed again. -/
theorem Drew.drwBit_eq (h : Drew x y n s t) (hx : x ≠ 15) (hy : y ≠ 15) (yy xx : Nat) :
    t.drwBit x y n yy xx = s.drwBit x y n yy xx :=
  drwBit_congr h.index (h.frame .memory (by decide)) (h.others x hx) (h.others y hy) yy xx

/-- R122 (a): XOR with the same bits is undone. -/
theorem Drew.twice_restores (first : Drew x y n s t) (second : Drew x y n t u) (hx : x ≠ 15) (hy : y ≠ 15) :
    u.fb = s.fb := by
  refine Frame.ext_pixel fun yy xx _ _ => ?_
  rw [second.pixel, first.drwBit_eq hx hy, first.pixel, Bool.xor_assoc, Bool.xor_self, Bool.xor_false]

/-- R122 (a): a lit pixel under a 1 bit, after a draw, was 0 before it. -/
theorem Drew.collides_again_iff (h : Drew x y n s t) (hx : x ≠ 15) (hy : y ≠ 15) : t.Collides x y n ↔
    ∃ yy xx, yy < 32 ∧ xx < 64 ∧ s.fb.pixel yy xx = false ∧ s.drwBit x y n yy xx = true := by
  unfold State.Collides
  refine exists₂_congr fun yy xx => and_congr_right fun hyy => and_congr_right fun hxx => ?_
  rw [h.drwBit_eq hx hy, h.pixel]
  refine and_congr_left fun bit => ?_
  simp [hyy, hxx, bit]

/-- R122 (c). -/
theorem Drew.pixel_changes_iff (h : Drew x y n s t) (yy xx : Nat) :
    t.fb.pixel yy xx ≠ s.fb.pixel yy xx ↔ yy < 32 ∧ xx < 64 ∧ s.drwBit x y n yy xx = true := by
  rw [← Bool.xor_iff_ne, h.pixel, Bool.xor_comm, ← Bool.xor_assoc, Bool.xor_self, Bool.false_xor]
  simp [and_assoc]

theorem spriteBit_bounds {x0 y0 k yy xx : Nat} (bit : s.spriteBit x0 y0 k yy xx = true) :
    x0 ≤ xx ∧ xx < x0 + 8 ∧ y0 ≤ yy ∧ yy < y0 + k :=
  of_decide_eq_true (Bool.and_elim_left bit)

/-- R122 (d): VF is neither an operand nor a pixel. -/
theorem setReg_vf_collides_iff (b : Byte) (hx : x ≠ 15) (hy : y ≠ 15) :
    (s.setReg 15 b).Collides x y n ↔ s.Collides x y n := by
  have bits (yy xx : Nat) : (s.setReg 15 b).drwBit x y n yy xx = s.drwBit x y n yy xx :=
    drwBit_congr (setReg_i s 15 b) (setReg_peek s 15 b) ((setReg_reg s 15 x b).trans (if_neg hx))
      ((setReg_reg s 15 y b).trans (if_neg hy)) yy xx
  simp only [State.Collides, setReg_fb, bits]

/-- VF after a draw tells whether the sprite collided, and nothing else. -/
theorem Drew.vf_eq_of_collides_iff {s' t' : State} (h : Drew x y n s t) (h' : Drew x y n s' t')
    (same : s'.Collides x y n ↔ s.Collides x y n) : t'.reg 15 = t.reg 15 := by
  obtain ⟨b, vf, collides⟩ := h.flag
  obtain ⟨b', vf', collides'⟩ := h'.flag
  have flags : b' = b := Bool.eq_iff_iff.2 (collides'.trans (same.trans collides.symm))
  rw [vf', vf, flags]

/-- Settles O26 from the effect of one draw (`exec_drw_drew`). -/
theorem drawTwiceRestores : Obligations.DrawTwiceRestores := by
  intro x y n s hx hy bound
  obtain ⟨t, executed, first⟩ := exec_drw_drew hx hy bound
  obtain ⟨u, executed', second⟩ := exec_drw_drew (s := t) (n := n) hx hy (by rwa [first.index])
  refine ⟨t, u, executed, executed', first.twice_restores second hx hy,
    second.vf_eq_one_iff.trans (first.collides_again_iff hx hy), fun yy xx outside => ?_, first.pixel_changes_iff,
    fun b => ?_⟩
  · by_contra changed
    obtain ⟨-, -, bit⟩ := (first.pixel_changes_iff yy xx).1 changed
    have := spriteBit_bounds bit
    omega
  · obtain ⟨t', executed'', drew⟩ := exec_drw_drew (s := s.setReg 15 b) (n := n) hx hy bound
    exact ⟨t', executed'', first.vf_eq_of_collides_iff drew (setReg_vf_collides_iff b hx hy)⟩

end Sys2Proof.Machine
end

section
/-! PROOFS. Control transfer (42_control_transfer.md): the outcomes of RET (R130), JP (R131), CALL (R132), SE (R133) and
SKNP (R134), and the return that follows a call. -/

namespace Sys2Proof.Machine

open Sys2Proof

variable {s t u : State} {x : Nibble} {addr : Addr} {parts : List Part}

/-! ### Frames of operations in sequence -/

theorem Part.same_trans {p : Part} (first : Part.same s t p) (second : Part.same t u p) : Part.same s u p := by
  cases p with
  | stack | elapsed =>
    obtain ⟨a, b⟩ := first
    obtain ⟨a', b'⟩ := second
    exact ⟨a'.trans a, b'.trans b⟩
  | outside =>
    obtain ⟨cfg, calls, draws⟩ := first
    obtain ⟨cfg', calls', draws'⟩ := second
    exact ⟨cfg'.trans cfg, calls'.trans calls, draws'.trans draws⟩
  | regs | memory => exact fun k => (second k).trans (first k)
  | frame => exact fun yy xx => (second yy xx).trans (first yy xx)
  | index | delay | dirty | fault => exact second.trans first

theorem UnchangedBut.trans (first : UnchangedBut parts s t) (second : UnchangedBut parts t u) :
    UnchangedBut parts s u :=
  fun p hp => Part.same_trans (first p hp) (second p hp)

/-- R104: PC belongs to no part, so moving it leaves every part unchanged. -/
theorem finish_frame (parts : List Part) (s : State) (flow : Flow) : UnchangedBut parts s (s.finish flow) :=
  fun p _ => Part.same_refl s p

theorem push_frame (s : State) (a : Word) : UnchangedBut [.stack] s (s.push a) := by
  intro p hp
  have refl := Part.same_refl s p
  cases p with
  | stack => simp at hp
  | _ => exact refl

theorem drop_frame (s : State) : UnchangedBut [.stack] s s.drop := by
  intro p hp
  have refl := Part.same_refl s p
  cases p with
  | stack => simp at hp
  | _ => exact refl

/-! ### RET -/

/-- R130, R173: nothing to pop. -/
theorem exec_ret_of_empty (empty : s.sp = 0) :
    exec .ret s = .next (s.raise .stackUnderflow (encode .ret)) :=
  if_pos empty

theorem exec_ret_of_nonempty (nonempty : s.sp ≠ 0) : exec .ret s = .next (s.drop.finish (.jump s.top)) :=
  if_neg nonempty

theorem ret_frame (s : State) : UnchangedBut [.stack] s (s.drop.finish (.jump s.top)) :=
  (drop_frame s).trans (finish_frame _ _ _)

/-- R130: the vacated slot reads 0, within the slots or past them. -/
theorem drop_slot (s : State) (j : Nat) :
    s.drop.stack.getD j 0 = if j = s.sp - 1 then 0 else s.stack.getD j 0 := by
  rw [drop_stack, getD_set_zero]
  by_cases vacated : j = s.sp - 1
  · by_cases inside : s.sp - 1 < s.stack.length
    · simp [vacated, inside]
    · rw [if_neg fun h => inside h.2, if_pos vacated, List.getD_eq_default _ _ (by omega)]
  · rw [if_neg fun h => vacated h.1, if_neg vacated]

/-- Settles O27: the two outcomes of RET, the second by what the slots hold after the pop. -/
theorem returnPops : Obligations.ReturnPops := by
  refine ⟨rfl, fun s => ⟨fun empty => ?_, fun nonempty => ?_⟩⟩
  · exact ⟨_, exec_ret_of_empty empty, raise_tookFault s _ (encode .ret)⟩
  · exact ⟨_, exec_ret_of_nonempty nonempty, rfl, rfl, (drop_slot s _).trans (if_pos rfl), List.length_set,
      fun j other => (drop_slot s j).trans (if_neg other), ret_frame s⟩

/-! ### JP -/

/-- Settles O28: JP is `State.finish` alone, at the operand widened to the width of PC. -/
theorem jumpSetsCounter : Obligations.JumpSetsCounter :=
  fun addr s => ⟨encodeNnn_eq_or 0x1 addr, s.finish (.jump (addr.setWidth 16)), rfl, addr_setWidth_toNat addr,
    finish_frame _ s _⟩

/-! ### CALL -/

/-- R132, R172: no slot is free. -/
theorem exec_call_of_full (full : s.cfg.stackDepth ≤ s.sp) :
    exec (.call addr) s = .next (s.raise .stackOverflow (encode (.call addr))) :=
  if_pos full

theorem exec_call_of_room (room : s.sp < s.cfg.stackDepth) :
    exec (.call addr) s = .next ((s.push (s.pc + 2)).finish (.jump (addr.setWidth 16))) :=
  if_neg (Nat.not_le_of_lt room)

theorem call_frame (addr : Addr) (s : State) :
    UnchangedBut [.stack] s ((s.push (s.pc + 2)).finish (.jump (addr.setWidth 16))) :=
  (push_frame s _).trans (finish_frame _ _ _)

theorem push_slot (inside : s.sp < s.stack.length) (a : Word) (j : Nat) :
    (s.push a).stack.getD j 0 = if j = s.sp then a else s.stack.getD j 0 := by
  simp only [push_stack, getD_set_zero, inside, and_true]

/-- Settles O29: the two outcomes of CALL; the return address does not wrap where an instruction can be fetched. -/
theorem callPushes : Obligations.CallPushes := by
  intro addr s slots
  have word : encode (.call addr) = 0x2000 ||| addr.setWidth 16 := encodeNnn_eq_or 0x2 addr
  refine ⟨word, fun full => ?_, fun room pcLe => ?_⟩
  · exact ⟨_, exec_call_of_full full.ge, word ▸ raise_tookFault s _ (encode (.call addr))⟩
  · have slot := push_slot (s := s) (slots ▸ room) (s.pc + 2)
    have pushed : ((s.push (s.pc + 2)).stack.getD s.sp 0).toNat = s.pc.toNat + 2 := by
      rw [slot, if_pos rfl]
      bv_omega
    exact ⟨_, exec_call_of_room room, pushed, List.length_set, fun j other => (slot j).trans (if_neg other), rfl,
      addr_setWidth_toNat addr, call_frame addr s⟩

/-! ### A return after a call -/

/-- What is pushed onto a free slot is the next top. -/
theorem push_top (inside : s.sp < s.stack.length) (a : Word) : (s.push a).top = a :=
  (push_slot inside a s.sp).trans (if_pos rfl)

theorem push_drop_stack (s : State) (a : Word) : (s.push a).drop.stack = s.stack.set s.sp 0 :=
  List.set_set ..

/-- Settles O30: RET pops what CALL pushed, and both touch the stack alone. -/
theorem callThenReturnRoundTrip : Obligations.CallThenReturnRoundTrip := by
  intro addr s slots room
  exact ⟨_, _, exec_call_of_room room, exec_ret_of_nonempty (Nat.succ_ne_zero s.sp),
    push_top (slots ▸ room) (s.pc + 2), rfl, push_drop_stack s (s.pc + 2), (call_frame addr s).trans (ret_frame _)⟩

/-! ### SE -/

/-- Settles O31: the comparison chooses between the two outcomes of `nextPc`. -/
theorem skipIfEqual : Obligations.SkipIfEqual := by
  intro x kk s
  exact ⟨encodeXkk_eq_or 0x3 x kk, s.finish (if s.reg x = kk then .skip else .next), rfl,
    fun equal => congrArg (nextPc s.pc) (if_pos equal), fun differs => congrArg (nextPc s.pc) (if_neg differs),
    finish_frame _ s _⟩

/-! ### SKNP -/

/-- R134, R176. -/
theorem exec_sknp_of_outside (outside : 15 < (s.reg x).toNat) :
    exec (.sknp x) s = .next (s.raise .keypadIndexOutOfRange (encode (.sknp x))) :=
  if_pos outside

theorem exec_sknp_of_key (inside : (s.reg x).toNat < 16) :
    exec (.sknp x) s = .next (s.finish (if s.input.key[(s.reg x).toNat] then .next else .skip)) := by
  have key : s.key (s.reg x).toNat = s.input.key[(s.reg x).toNat] := by simp [State.key, inside]
  rw [← key]
  exact if_neg (by omega)

/-- Settles O32: the fault of a number that names no key, else the key chooses between the two outcomes of `nextPc`. -/
theorem skipIfKeyNotPressed : Obligations.SkipIfKeyNotPressed := by
  intro x s
  have word : encode (.sknp x) = 0xE0A1 ||| x.setWidth 16 <<< 8 := encodeXkk_eq_fixed_or 0xE x 0xA1
  refine ⟨word, fun outside => ?_, fun inside => ?_⟩
  · exact ⟨_, exec_sknp_of_outside outside, word ▸ raise_tookFault s _ (encode (.sknp x))⟩
  · refine ⟨_, exec_sknp_of_key inside, fun released => ?_, fun pressed => ?_, finish_frame _ s _⟩
    · rw [released]; rfl
    · rw [pressed]; rfl

end Sys2Proof.Machine
end

section
/-! PROOFS. Register operations (43_register_ops.md): LD Vx, kk (R140), ADD Vx, kk (R141) and RND (R144), which write
one register; SHL (R142) and SHR (R143), which write a register and VF; and the refused forms (R146, R147). -/

namespace Sys2Proof.Machine

open Sys2Proof

variable {s : State} {x y : Nibble} {shift : Nat → Byte} {flag : Bool}

/-! ### A write of one register -/

theorem setReg_frame (s : State) (x : Nibble) (b : Byte) : UnchangedBut [.regs] s (s.setReg x b) := by
  intro p hp
  have refl := Part.same_refl s p
  cases p with
  | regs => simp at hp
  | _ => exact refl

/-- From `s` to `t` an instruction put `b` in `V[x]`, went to the next instruction, and did nothing else. -/
structure WroteReg (x : Nibble) (b : Byte) (s t : State) : Prop where
  value : t.reg x = b
  others : ∀ r, r ≠ x → t.reg r = s.reg r
  pc : t.pc = s.pc + 2
  frame : UnchangedBut [.regs] s t

theorem setReg_finish_wroteReg (s : State) (x : Nibble) (b : Byte) : WroteReg x b s ((s.setReg x b).finish .next) where
  value := (setReg_reg s x x b).trans (if_pos rfl)
  others r other := (setReg_reg s x r b).trans (if_neg other)
  pc := rfl
  frame := (setReg_frame s x b).trans (finish_frame _ _ _)

/-- Settles O33: the byte is the one written. -/
theorem loadImmediateEffect : Obligations.LoadImmediateEffect := by
  intro x kk s
  obtain ⟨value, others, pc, frame⟩ := setReg_finish_wroteReg s x kk
  exact ⟨encodeXkk_eq_or 0x6 x kk, _, rfl, value, others, pc, frame⟩

/-- Settles O34: the byte written is a sum of bytes, which wraps, and no second register is written. -/
theorem addImmediateWraps : Obligations.AddImmediateWraps := by
  intro x kk s
  obtain ⟨value, others, pc, frame⟩ := setReg_finish_wroteReg s x (s.reg x + kk)
  have sum : (s.reg x + kk).toNat = ((s.reg x).toNat + kk.toNat) % 256 := BitVec.toNat_add ..
  exact ⟨encodeXkk_eq_or 0x7 x kk, _, rfl, (congrArg BitVec.toNat value).trans sum, others, pc, frame⟩

/-- R144: `r & ~kk = 0`. -/
theorem and_and_not_eq_zero (a kk : Byte) : a &&& kk &&& ~~~kk = 0 := by
  rw [BitVec.and_assoc, BitVec.and_not_self]
  exact BitVec.and_zero

/-- Settles O38: the byte written is an AND with `kk`, which no bit outside `kk` survives. -/
theorem randomAndMask : Obligations.RandomAndMask := by
  intro x kk s
  obtain ⟨value, others, pc, frame⟩ := setReg_finish_wroteReg s x (s.input.rnd &&& kk)
  exact ⟨encodeXkk_eq_or 0xC x kk, _, rfl, value,
    (congrArg (· &&& ~~~kk) value).trans (and_and_not_eq_zero s.input.rnd kk), others, pc, frame⟩

/-! ### The outcomes of a shift -/

/-- R147. -/
theorem shiftInto_of_vf (vf : x = 15 ∨ y = 15) : shiftInto x y shift flag s = .refused .vfOperandOfFlagWriter :=
  if_pos (namesVf_iff.2 vf)

/-- R146. -/
theorem shiftInto_of_refuse (hx : x ≠ 15) (hy : y ≠ 15) (wide : 8 ≤ s.shiftAmount x y)
    (refuse : s.cfg.shiftWide = .refuse) : shiftInto x y shift flag s = .refused .shiftAmountTooWide := by
  simp [shiftInto, namesVf_of_ne hx hy, shiftResult_eq_none.2 ⟨refuse, wide⟩]

theorem shiftInto_of_result {r : Byte} (hx : x ≠ 15) (hy : y ≠ 15)
    (result : shiftResult s.cfg.shiftWide shift (s.shiftAmount x y) = some r) :
    shiftInto x y shift flag s = .next (((s.setReg x r).setFlag flag).finish .next) := by
  simp [shiftInto, namesVf_of_ne hx hy, result]

theorem shiftInto_refused_cases {r : Refusal} (h : shiftInto x y shift flag s = .refused r) :
    (r = .vfOperandOfFlagWriter ∧ (x = 15 ∨ y = 15)) ∨
    (r = .shiftAmountTooWide ∧ namesVf x y = false ∧ s.cfg.shiftWide = .refuse ∧ 8 ≤ s.shiftAmount x y) := by
  unfold shiftInto at h
  split at h
  case isTrue vf => exact .inl ⟨(Host.Outcome.refused.inj h).symm, namesVf_iff.1 vf⟩
  case isFalse noVf =>
    split at h
    case h_1 none => exact .inr ⟨(Host.Outcome.refused.inj h).symm,
      Bool.eq_false_iff.2 noVf, shiftResult_eq_none.1 none⟩
    case h_2 => cases h

/-! ### The effect of a shift -/

theorem shiftResult_narrow {w : ShiftWide} {k : Nat} (narrow : k ≤ 7) : shiftResult w shift k = some (shift k) :=
  if_pos narrow

theorem shiftResult_wide {w : ShiftWide} {k : Nat} (wide : 8 ≤ k) : shiftResult w shift k = wideShift w shift k :=
  if_neg (Nat.not_le_of_lt wide)

/-- From `s` to `t` a shift of `V[x]` by `k` completed: `result` is its value for an amount up to 7, `bit` the flag
(R142, R143, with the settings of R146). -/
structure Shifted (x : Nibble) (result : Nat → Nat) (k bit : Nat) (s t : State) : Prop where
  narrow : k ≤ 7 → (t.reg x).toNat = result k
  zero : 8 ≤ k → s.cfg.shiftWide = .zero → t.reg x = 0
  mod8 : 8 ≤ k → s.cfg.shiftWide = .mod8 → (t.reg x).toNat = result (k % 8)
  vf : (t.reg 15).toNat = bit
  others : ∀ r, r ≠ x → r ≠ 15 → t.reg r = s.reg r
  pc : t.pc = s.pc + 2
  frame : UnchangedBut [.regs] s t

section Completion

variable {k bit : Nat} {r : Byte} {result : Nat → Nat}
  (hresult : ∀ k, (shift k).toNat = result k) (hbit : (flagByte flag).toNat = bit)

include hresult hbit

theorem setReg_setFlag_finish_shifted (hx : x ≠ 15) (shifted : shiftResult s.cfg.shiftWide shift k = some r) :
    Shifted x result k bit s (((s.setReg x r).setFlag flag).finish .next) := by
  have value : ((s.setReg x r).setFlag flag).reg x = r := by rw [setFlag_reg, if_neg hx, setReg_reg, if_pos rfl]
  constructor
  case narrow =>
    intro narrow
    rw [shiftResult_narrow narrow, Option.some.injEq] at shifted
    rw [finish_reg, value, ← shifted, hresult]
  case zero =>
    intro wide setting
    rw [shiftResult_wide wide, setting] at shifted
    exact value.trans (Option.some.inj shifted).symm
  case mod8 =>
    intro wide setting
    rw [shiftResult_wide wide, setting] at shifted
    rw [finish_reg, value, ← Option.some.inj shifted, hresult]
  case vf => rw [finish_reg, setFlag_reg, if_pos rfl, hbit]
  case others =>
    intro other otherThanX otherThanVf
    rw [finish_reg, setFlag_reg, if_neg otherThanVf, setReg_reg, if_neg otherThanX]
  case pc => rfl
  case frame => exact ((setReg_frame s x r).trans (setReg_frame _ 15 _)).trans (finish_frame _ _ _)

theorem shiftInto_shifted (hx : x ≠ 15) (hy : y ≠ 15)
    (allowed : ¬ (8 ≤ s.shiftAmount x y ∧ s.cfg.shiftWide = .refuse)) :
    ∃ t, shiftInto x y shift flag s = .next t ∧ Shifted x result (s.shiftAmount x y) bit s t := by
  cases shifted : shiftResult s.cfg.shiftWide shift (s.shiftAmount x y) with
  | none => exact absurd (shiftResult_eq_none.1 shifted).symm allowed
  | some r =>
    exact ⟨_, shiftInto_of_result hx hy shifted, setReg_setFlag_finish_shifted hresult hbit hx shifted⟩

end Completion

/-! ### SHL and SHR -/

theorem shiftLeft_toNat (a : Byte) (k : Nat) : (a <<< k).toNat = a.toNat * 2 ^ k % 256 := by
  rw [BitVec.toNat_shiftLeft, Nat.shiftLeft_eq]

theorem ushiftRight_toNat (a : Byte) (k : Nat) : (a >>> k).toNat = a.toNat / 2 ^ k := by
  rw [BitVec.toNat_ushiftRight, Nat.shiftRight_eq_div_pow]

theorem flagByte_toNat (b : Bool) : (flagByte b).toNat = b.toNat := by cases b <;> rfl

theorem shlFlag_toNat (a : Byte) : (flagByte (shlFlag a)).toNat = a.toNat / 128 := by
  have small : a.toNat < 256 := a.isLt
  rw [flagByte_toNat, shlFlag, BitVec.getLsbD, Nat.toNat_testBit]
  omega

theorem shrFlag_toNat (a : Byte) : (flagByte (shrFlag a)).toNat = a.toNat % 2 := by
  rw [flagByte_toNat, shrFlag, BitVec.getLsbD, Nat.toNat_testBit, pow_zero, Nat.div_one]

/-- Settles O35: the outcomes of `shiftInto`, a shift to the left being a product cut to 8 bits. -/
theorem shiftLeftEffect : Obligations.ShiftLeftEffect := by
  intro x y s
  refine ⟨encodeXyn_eq_fixed_or 0x8 x y 0xE, shiftInto_of_vf, ?_⟩
  rintro hx hy k rfl
  refine ⟨shiftInto_of_refuse hx hy, fun allowed => ?_⟩
  obtain ⟨t, executed, narrow, zero, mod8, vf, others, pc, frame⟩ :=
    shiftInto_shifted (shiftLeft_toNat (s.reg x)) (shlFlag_toNat (s.reg x)) hx hy allowed
  exact ⟨t, executed, narrow, zero, mod8, vf, others, pc, frame⟩

/-- Settles O36: the outcomes of `shiftInto`, a logical shift to the right being a quotient. -/
theorem shiftRightEffect : Obligations.ShiftRightEffect := by
  intro x y s
  refine ⟨encodeXyn_eq_fixed_or 0x8 x y 0x6, shiftInto_of_vf, ?_⟩
  rintro hx hy k rfl
  refine ⟨shiftInto_of_refuse hx hy, fun allowed => ?_⟩
  obtain ⟨t, executed, narrow, zero, mod8, vf, others, pc, frame⟩ :=
    shiftInto_shifted (ushiftRight_toNat (s.reg x)) (shrFlag_toNat (s.reg x)) hx hy allowed
  exact ⟨t, executed, narrow, zero, mod8, vf, others, pc, frame⟩

/-! ### The refused forms -/

/-- When an instruction is refused (R186). -/
inductive State.Refuses (s : State) : Instr → Refusal → Prop
  | shlVf (x y : Nibble) (vf : x = 15 ∨ y = 15) : s.Refuses (.shl x y) .vfOperandOfFlagWriter
  | shrVf (x y : Nibble) (vf : x = 15 ∨ y = 15) : s.Refuses (.shr x y) .vfOperandOfFlagWriter
  | drwVf (x y n : Nibble) (vf : x = 15 ∨ y = 15) : s.Refuses (.drw x y n) .vfOperandOfFlagWriter
  | shlWide (x y : Nibble) (noVf : namesVf x y = false) (refuse : s.cfg.shiftWide = .refuse)
      (wide : 8 ≤ s.shiftAmount x y) : s.Refuses (.shl x y) .shiftAmountTooWide
  | shrWide (x y : Nibble) (noVf : namesVf x y = false) (refuse : s.cfg.shiftWide = .refuse)
      (wide : 8 ≤ s.shiftAmount x y) : s.Refuses (.shr x y) .shiftAmountTooWide

/-- Inversion of `exec` where it refuses. -/
theorem exec_refused_cases {i : Instr} {r : Refusal} (h : exec i s = .refused r) : s.Refuses i r := by
  cases i with
  | shl x y =>
    obtain ⟨rfl, vf⟩ | ⟨rfl, noVf, refuse, wide⟩ := shiftInto_refused_cases h
    · exact .shlVf x y vf
    · exact .shlWide x y noVf refuse wide
  | shr x y =>
    obtain ⟨rfl, vf⟩ | ⟨rfl, noVf, refuse, wide⟩ := shiftInto_refused_cases h
    · exact .shrVf x y vf
    · exact .shrWide x y noVf refuse wide
  | drw x y n =>
    by_cases vf : x = 15 ∨ y = 15
    · obtain rfl := Host.Outcome.refused.inj ((exec_drw_of_vf vf).symm.trans h)
      exact .drwVf x y n vf
    · obtain ⟨hx, hy⟩ := not_or.1 vf
      obtain outside | bound := Nat.lt_or_ge memSize (s.i.toNat + n.toNat)
      · cases (exec_drw_of_outside hx hy outside).symm.trans h
      · obtain ⟨t, executed, -⟩ := exec_drw_drew hx hy bound
        cases executed.symm.trans h
  | ret | call | sknp | ldB | ldVxI =>
    simp only [exec, execRet, execCall, execSknp, execLdB, execLdVxI] at h
    split at h <;> cases h
  | cls | jp | se | ldImm | addImm | ldI | rnd | ldVxDt | ldDtVx | ldF => cases h

/-- Settles O37: the forms decode as every instruction does, and by `exec_refused_cases` no other is refused so. -/
theorem flagWritersRefuseVf : Obligations.FlagWritersRefuseVf := by
  refine ⟨fun x y n s vf => ?_, fun i s refused => ?_⟩
  · exact ⟨decode_encode _, decode_encode _, decode_encode _, shiftInto_of_vf vf, shiftInto_of_vf vf,
      exec_drw_of_vf vf⟩
  · cases exec_refused_cases refused with
    | shlVf x y vf => exact ⟨x, y, vf, .inl rfl⟩
    | shrVf x y vf => exact ⟨x, y, vf, .inr (.inl rfl)⟩
    | drwVf x y n vf => exact ⟨x, y, vf, .inr (.inr ⟨n, rfl⟩)⟩

end Sys2Proof.Machine
end

section
/-! PROOFS. Index register and memory instructions (44_index_and_memory.md): LD I (R150) and LD F (R151), which write I;
LD B (R152), which stores three digits; and LD Vx, [I] (R153), which loads a block of registers. -/

namespace Sys2Proof.Machine

open Sys2Proof

variable {s : State} {x : Nibble}

/-! ### Frames of the updates -/

theorem setIndex_frame (s : State) (a : Addr) : UnchangedBut [.index] s (s.setIndex a) := by
  intro p hp
  have refl := Part.same_refl s p
  cases p with
  | index => simp at hp
  | _ => exact refl

theorem pokes_frame (s : State) (a : Nat) (bs : List Byte) : UnchangedBut [.memory] s (s.pokes a bs) := by
  intro p hp
  have refl := Part.same_refl s p
  cases p with
  | memory => simp at hp
  | _ => exact refl

theorem setRegs_frame (s : State) (bs : List Byte) : UnchangedBut [.regs] s (s.setRegs bs) := by
  intro p hp
  have refl := Part.same_refl s p
  cases p with
  | regs => simp at hp
  | _ => exact refl

/-! ### LD I and LD F -/

/-- Settles O39: LD I is `State.setIndex` at its operand, whatever the address. -/
theorem loadIndexEffect : Obligations.LoadIndexEffect :=
  fun addr s => ⟨encodeNnn_eq_or 0xA addr, (s.setIndex addr).finish .next, rfl, rfl, rfl,
    (setIndex_frame s addr).trans (finish_frame _ _ _)⟩

/-- Settles O40: five times a byte fits the 12 bits of I, by `glyphAddr_toNat`. -/
theorem loadGlyphAddress : Obligations.LoadGlyphAddress :=
  fun x s => ⟨encodeXkk_eq_fixed_or 0xF x 0x29, (s.setIndex (glyphAddr (s.reg x))).finish .next, rfl,
    glyphAddr_toNat (s.reg x), rfl, (setIndex_frame s _).trans (finish_frame _ _ _)⟩

/-! ### LD B -/

/-- R152, R175. -/
theorem exec_ldB_of_outside (outside : memSize < s.i.toNat + 3) :
    exec (.ldB x) s = .next (s.raise .memoryOutOfBounds (encode (.ldB x))) := by
  rw [exec, execLdB, writeBlock_eq_none.2 outside]

/-- A block write leaves every byte outside the block as it was. -/
theorem pokes_peek_outside {a k : Nat} {bs : List Byte} (sorted : s.Sorted) (outside : k < a ∨ a + bs.length ≤ k) :
    (s.pokes a bs).peek k = s.peek k := by
  by_contra changed
  have ⟨low, high⟩ := pokes_changes sorted changed
  omega

/-- Settles O41: the two outcomes of LD B; inside memory the block of three digits is written and nothing around it. -/
theorem storeDecimalDigits : Obligations.StoreDecimalDigits := by
  intro x s wf
  obtain ⟨sorted, -⟩ := wf
  have word : encode (.ldB x) = 0xF033 ||| x.setWidth 16 <<< 8 := encodeXkk_eq_fixed_or 0xF x 0x33
  refine ⟨word, fun outside => ?_, fun inside => ?_⟩
  · exact ⟨_, exec_ldB_of_outside (Nat.lt_succ_of_le outside), word ▸ raise_tookFault s _ (encode (.ldB x))⟩
  · have digit (j : Nat) := pokes_bcdDigits_peek sorted s.i.toNat j (s.reg x)
    exact ⟨_, execLdB_of_bound inside, digit 0, digit 1, digit 2, fun a other => pokes_peek_outside sorted other, rfl,
      (pokes_frame s _ _).trans (finish_frame _ _ _)⟩

/-! ### LD Vx, [I] -/

/-- R153, R175. -/
theorem exec_ldVxI_of_outside (outside : memSize < s.i.toNat + (x.toNat + 1)) :
    exec (.ldVxI x) s = .next (s.raise .memoryOutOfBounds (encode (.ldVxI x))) := by
  rw [exec, execLdVxI, readBlock_eq_none.2 outside]

theorem exec_ldVxI_of_read {bs : List Byte} (read : s.readBlock s.i.toNat (x.toNat + 1) = some bs) :
    exec (.ldVxI x) s = .next ((s.setRegs bs).finish .next) := by
  rw [exec, execLdVxI, read]

/-- The registers after a block that was read is put into them, from `V[0]` on. -/
theorem setRegs_reg_of_read {a len : Nat} {bs : List Byte} (read : s.readBlock a len = some bs) (r : Nibble) :
    (s.setRegs bs).reg r = if r.toNat < len then s.peek (a + r.toNat) else s.reg r :=
  (setRegs_reg s bs r).trans (readBlock_get read r.toNat (s.reg r))

/-- Settles O42: the two outcomes of LD Vx, [I]; a block of `x + 1` bytes reaches the registers up to `V[x]`. -/
theorem blockLoadEffect : Obligations.BlockLoadEffect := by
  intro x s
  have word : encode (.ldVxI x) = 0xF065 ||| x.setWidth 16 <<< 8 := encodeXkk_eq_fixed_or 0xF x 0x65
  refine ⟨word, fun outside => ?_, fun inside => ?_⟩
  · exact ⟨_, exec_ldVxI_of_outside (Nat.lt_succ_of_le outside), word ▸ raise_tookFault s _ (encode (.ldVxI x))⟩
  · obtain ⟨bs, read⟩ : ∃ bs, s.readBlock s.i.toNat (x.toNat + 1) = some bs := ⟨_, if_pos inside⟩
    have reg := setRegs_reg_of_read read
    exact ⟨_, exec_ldVxI_of_read read, fun r upTo => (reg r).trans (if_pos (Nat.lt_succ_of_le upTo)),
      fun r above => (reg r).trans (if_neg (Nat.not_lt_of_le above)), rfl,
      (setRegs_frame s bs).trans (finish_frame _ _ _)⟩

end Sys2Proof.Machine
end

section
/-! PROOFS. Timer access instructions (45_timer_access.md): LD Vx, DT (R160) and LD DT, Vx (R161), alone and as the
instruction of a tick. -/

namespace Sys2Proof.Machine

open Sys2Proof

variable {s : State} {x : Nibble}

theorem setDelay_frame (s : State) (b : Byte) : UnchangedBut [.delay] s (s.setDelay b) := by
  intro p hp
  have refl := Part.same_refl s p
  cases p with
  | delay => simp at hp
  | _ => exact refl

/-- The value of DT that the instruction of a tick starts from is the one after the timer update (R100). -/
theorem beginTick_dt (s : State) : s.beginTick.dt = (s.timerUpdate s.input.dt).dt := rfl

/-- R160. -/
theorem exec_ldVxDt (x : Nibble) (s : State) : exec (.ldVxDt x) s = .next ((s.setReg x s.dt).finish .next) := rfl

/-- R161. -/
theorem exec_ldDtVx (x : Nibble) (s : State) : exec (.ldDtVx x) s = .next ((s.setDelay (s.reg x)).finish .next) := rfl

theorem State.Executes.step_ldVxDt (h : s.Executes (.ldVxDt x)) :
    step s = .next ((s.beginTick.setReg x s.beginTick.dt).finish .next).endCall :=
  h.step_eq.trans (congrArg endOutcome (exec_ldVxDt x s.beginTick))

theorem State.Executes.step_ldDtVx (h : s.Executes (.ldDtVx x)) :
    step s = .next ((s.beginTick.setDelay (s.beginTick.reg x)).finish .next).endCall :=
  h.step_eq.trans (congrArg endOutcome (exec_ldDtVx x s.beginTick))

/-- Settles O43: the two instructions start from `State.beginTick`, whose DT is the one after this tick's update, and
nothing after them writes DT. -/
theorem delayTimerAccess : Obligations.DelayTimerAccess := by
  intro x s
  refine ⟨encodeXkk_eq_fixed_or 0xF x 0x07, encodeXkk_eq_fixed_or 0xF x 0x15, ?read, ?write, fun runs => ?readTick,
    fun runs => ?writeTick⟩
  case read =>
    obtain ⟨value, others, pc, frame⟩ := setReg_finish_wroteReg s x s.dt
    exact ⟨_, exec_ldVxDt x s, value, others, pc, frame⟩
  case write =>
    exact ⟨_, exec_ldDtVx x s, rfl, rfl, (setDelay_frame s (s.reg x)).trans (finish_frame _ _ _)⟩
  case readTick =>
    have value := (setReg_finish_wroteReg s.beginTick x s.beginTick.dt).value
    exact ⟨_, runs.step_ldVxDt, value.trans (beginTick_dt s), beginTick_dt s⟩
  case writeTick =>
    exact ⟨_, runs.step_ldDtVx, beginTick_reg s x, beginTick_tacc s⟩

end Sys2Proof.Machine
end

section
/-! PROOFS. Exceptions (60_exceptions.md): what a step can do to FAULT, said once (R170 to R181), and the refusals,
complete (R186). -/

namespace Sys2Proof.Machine

open Sys2Proof

variable {s t : State} {i : Instr} {cause : Fault} {op : Word}

/-! ### What can latch a fault -/

/-- R172 to R176, R179: an instruction keeps FAULT, or it raises and does nothing else. -/
theorem exec_fault (h : exec i s = .next t) :
    t.fault = s.fault ∨ ∃ cause, s.Raises i cause ∧ t = s.raise cause (encode i) := by
  cases exec_cases h with
  | raised _ cause raises => exact .inr ⟨cause, raises, rfl⟩
  | _ => exact .inl rfl

/-- When a tick takes the fault `cause` of the word `op`, in the order of the checks (R178): the fetch, the decoder, the
instruction. -/
inductive State.TickRaises (s : State) : Fault → Word → Prop
  | fetchFault (fetched : s.fetch = none) : s.TickRaises .fetchOutOfBounds 0
  | unknown (op : Word) (fetched : s.fetch = some op) (decoded : decode op = none) : s.TickRaises .unknownOpcode op
  | run (i : Instr) (cause : Fault) (fetched : s.fetch = some (encode i)) (raises : s.beginTick.Raises i cause) :
      s.TickRaises cause (encode i)

/-- What a step can do to FAULT. -/
inductive FaultCase (s t : State) : Prop
  | kept (fault : t.fault = s.fault)
  | raised (cause : Fault) (op : Word) (running : s.fault = none) (raises : s.TickRaises cause op)
      (result : t = (s.beginTick.raise cause op).endCall)

theorem step_fault (h : step s = .next t) : FaultCase s t := by
  cases step_cases h with
  | fetchFault _ running fetched result => exact .raised _ _ running (.fetchFault fetched) result
  | unknown op _ running fetched decoded result => exact .raised _ _ running (.unknown op fetched decoded) result
  | run op i u _ running fetched decoded executed result =>
    subst result
    obtain rfl := encodeInvertsDecode op i decoded
    obtain kept | ⟨cause, raises, rfl⟩ := exec_fault executed
    · exact .kept kept
    · exact .raised cause _ running (.run i cause fetched raises) rfl
  | load _ _ _ result | loadByte _ _ _ _ result | reset _ _ result | timerUpdate _ _ _ result | halted _ _ result =>
    subst result; exact .kept rfl

/-! ### The latch -/

/-- Settles O14: only a running core raises, and a tick of a halted one is the end of its call. -/
theorem faultLatchIsSticky : Obligations.FaultLatchIsSticky := by
  refine ⟨fun s t r latched h => ⟨?_, fun call => ?_⟩, fun _ => rfl⟩
  · cases step_fault h with
    | kept fault => exact fault.trans latched
    | raised _ _ running => cases running.symm.trans latched
  · have halted : s.fault ≠ none := by simp [latched]
    exact (Host.Outcome.next.inj ((step_of_halted_tick call halted).symm.trans h)).symm

/-! ### A tick that faults -/

theorem beginTick_raise_endCall_frame (s : State) (cause : Fault) (op : Word) :
    UnchangedBut [.delay, .elapsed, .dirty, .fault, .outside] s (s.beginTick.raise cause op).endCall := by
  intro p hp
  have refl := Part.same_refl s p
  cases p with
  | delay | elapsed | dirty | fault | outside => simp at hp
  | _ => exact refl

/-- R179, R180: raising after the timer update and the DIRTY clear is all that a tick with a fault does. -/
theorem beginTick_raise_endCall_tickFaulted (cause : Fault) (word : s.fetch.getD 0 = op) :
    TickFaulted ⟨cause, s.pc, op⟩ s (s.beginTick.raise cause op).endCall :=
  ⟨rfl, rfl, word.symm, rfl, beginTick_raise_endCall_frame s cause op, rfl, rfl, rfl, rfl⟩

/-- Settles O11: from these addresses the fetch fails, and then the tick records the word 0. -/
theorem fetchOutOfBoundsHalts : Obligations.FetchOutOfBoundsHalts := by
  intro s call running outside
  have fetched : s.fetch = none := fetch_eq_none.2 (Nat.succ_le_succ outside)
  exact ⟨_, step_of_fetch_none call running fetched, beginTick_raise_endCall_tickFaulted _ (by rw [fetched]; rfl)⟩

/-- Settles O12: the decoder raises with the word that was fetched. -/
theorem unknownOpcodeHalts : Obligations.UnknownOpcodeHalts := by
  intro s op call running fetched decoded
  exact ⟨_, step_of_decode_none call running fetched decoded,
    beginTick_raise_endCall_tickFaulted _ (by rw [fetched]; rfl)⟩

/-- The recorded word is the fetched one, 0 when the fetch failed (R30). -/
theorem State.TickRaises.word (h : s.TickRaises cause op) : s.fetch.getD 0 = op := by
  cases h with
  | fetchFault fetched | unknown _ fetched | run _ _ fetched => rw [fetched]; rfl

/-- R172 to R176: no instruction raises a cause of the fetch or of the decoder. -/
theorem State.Raises.cause_ne (h : s.Raises i cause) : cause ≠ .fetchOutOfBounds ∧ cause ≠ .unknownOpcode := by
  cases h <;> decide

theorem State.TickRaises.fetchOutOfBounds_iff (h : s.TickRaises cause op) :
    cause = .fetchOutOfBounds ↔ s.fetch = none := by
  cases h with
  | fetchFault fetched => simp [fetched]
  | unknown _ fetched => simp [fetched]
  | run _ _ fetched raises => simp [fetched, raises.cause_ne]

theorem State.TickRaises.unknownOpcode_iff (h : s.TickRaises cause op) :
    cause = .unknownOpcode ↔ ∃ op, s.fetch = some op ∧ decode op = none := by
  cases h with
  | fetchFault fetched => simp [fetched]
  | unknown _ fetched decoded => simp [fetched, decoded]
  | run _ _ fetched raises => simp [fetched, raises.cause_ne]

/-- Settles O13: by `step_fault` the tick is a raise after `State.beginTick`, and each of the three checks knows its
cause. -/
theorem faultsArePrecise : Obligations.FaultsArePrecise := by
  intro s t r call running h latched
  cases step_fault h with
  | kept fault => cases (fault.trans running).symm.trans latched
  | raised cause op _ raises result =>
    subst result
    obtain rfl := Option.some.inj latched
    exact ⟨beginTick_raise_endCall_tickFaulted cause raises.word, raises.fetchOutOfBounds_iff,
      raises.unknownOpcode_iff⟩

/-! ### Genuine records -/

theorem State.Raises.genuine (h : s.Raises i cause) (pc : Word) : FaultRecord.genuine ⟨cause, pc, encode i⟩ := by
  cases h with
  | ret => rfl
  | call addr => exact ⟨addr, rfl⟩
  | sknp x => exact ⟨x, rfl⟩
  | drw x y n => exact ⟨x, y, n, .inl rfl⟩
  | ldB x => exact ⟨x, 0, 0, .inr (.inl rfl)⟩
  | ldVxI x => exact ⟨x, 0, 0, .inr (.inr rfl)⟩

theorem State.TickRaises.genuine (h : s.TickRaises cause op) : FaultRecord.genuine ⟨cause, s.pc, op⟩ := by
  cases h with
  | fetchFault fetched => exact ⟨rfl, fetch_eq_none.1 fetched⟩
  | unknown _ _ decoded => exact decoded
  | run _ _ _ raises => exact raises.genuine s.pc

/-- Settles O15: a step keeps the record or latches one that a tick raises. -/
theorem faultRecordsAreGenuine : Obligations.FaultRecordsAreGenuine := by
  intro s t genuine h r latched
  cases step_fault h with
  | kept fault => exact genuine r (fault.symm.trans latched)
  | raised cause op _ raises result =>
    subst result
    obtain rfl := Option.some.inj latched
    exact raises.genuine

/-! ### The refusals -/

theorem namesVf_eq_false_iff {x y : Nibble} : namesVf x y = false ↔ x ≠ 15 ∧ y ≠ 15 := by
  rw [← Bool.not_eq_true, namesVf_iff, not_or]

/-- R142, R143: a register shifted by itself is shifted by 1. -/
theorem eight_le_shiftAmount_iff {x y : Nibble} : 8 ≤ s.shiftAmount x y ↔ x ≠ y ∧ 8 ≤ (s.reg y).toNat := by
  by_cases same : x = y <;> simp [State.shiftAmount, same]

theorem State.Refuses.exec_eq {r : Refusal} (h : s.Refuses i r) : exec i s = .refused r := by
  cases h with
  | shlVf x y vf | shrVf x y vf => exact shiftInto_of_vf vf
  | drwVf x y n vf => exact exec_drw_of_vf vf
  | shlWide x y noVf refuse wide | shrWide x y noVf refuse wide =>
    obtain ⟨hx, hy⟩ := namesVf_eq_false_iff.1 noVf
    exact shiftInto_of_refuse hx hy wide refuse

/-- Inversion of `exec` where it refuses, as an equivalence. -/
theorem exec_refused_iff {r : Refusal} : exec i s = .refused r ↔ s.Refuses i r :=
  ⟨exec_refused_cases, State.Refuses.exec_eq⟩

/-- Settles O18: the five cases of `State.Refuses`, sorted by the refusal. -/
theorem refusalsAreExactlyThese : Obligations.RefusalsAreExactlyThese := by
  intro i s r
  rw [exec_refused_iff]
  constructor
  · rintro (⟨x, y, vf⟩ | ⟨x, y, vf⟩ | ⟨x, y, n, vf⟩ | ⟨x, y, noVf, refuse, wide⟩ | ⟨x, y, noVf, refuse, wide⟩)
    · exact .inl ⟨rfl, x, y, vf, .inl rfl⟩
    · exact .inl ⟨rfl, x, y, vf, .inr (.inl rfl)⟩
    · exact .inl ⟨rfl, x, y, vf, .inr (.inr ⟨n, rfl⟩)⟩
    all_goals
      obtain ⟨hx, hy⟩ := namesVf_eq_false_iff.1 noVf
      obtain ⟨distinct, amount⟩ := eight_le_shiftAmount_iff.1 wide
    · exact .inr ⟨rfl, refuse, x, y, hx, hy, distinct, amount, .inl rfl⟩
    · exact .inr ⟨rfl, refuse, x, y, hx, hy, distinct, amount, .inr rfl⟩
  · rintro (⟨rfl, x, y, vf, rfl | rfl | ⟨n, rfl⟩⟩ | ⟨rfl, refuse, x, y, hx, hy, distinct, amount, form⟩)
    · exact .shlVf x y vf
    · exact .shrVf x y vf
    · exact .drwVf x y n vf
    · have noVf := namesVf_eq_false_iff.2 ⟨hx, hy⟩
      have wide : 8 ≤ s.shiftAmount x y := eight_le_shiftAmount_iff.2 ⟨distinct, amount⟩
      obtain rfl | rfl := form
      · exact .shlWide x y noVf refuse wide
      · exact .shrWide x y noVf refuse wide

end Sys2Proof.Machine
end

section
/-! PROOFS. The timer update (60_exceptions.md R187) and what follows from it (R188): one update, then a run of equal
ones. -/

namespace Sys2Proof.Machine

open Sys2Proof

variable {s : State} {d : Seconds}

/-! ### One update -/

theorem timerUpdate_frame (s : State) (d : Seconds) : UnchangedBut [.delay, .elapsed] s (s.timerUpdate d) := by
  intro p hp
  have refl := Part.same_refl s p
  cases p with
  | delay | elapsed => simp at hp
  | _ => exact refl

theorem timerUpdate_tacc_val (s : State) (d : Seconds) : (s.timerUpdate d).tacc.val = s.tacc.val + d.val := rfl

/-- `timerUpdate_dt` in exact arithmetic, under every rule of the configuration (R188 (e)). -/
theorem timerUpdate_dt_toNat (s : State) (d : Seconds) : (s.timerUpdate d).dt.toNat =
    if s.timerFires (s.tacc.add d) = true ∧ 0 < s.dt.toNat then s.dt.toNat - 1 else s.dt.toNat := by
  have positive : s.dt ≠ 0 ↔ 0 < s.dt.toNat := by bv_omega
  simp only [timerUpdate_dt, positive, and_comm (a := 0 < s.dt.toNat)]
  split
  · bv_omega
  · rfl

theorem timerFires_threshold (rule : s.cfg.timerRule = .threshold) (tacc : Seconds) :
    s.timerFires tacc = true ↔ 1 / 60 ≤ tacc.val := by
  simp only [State.timerFires, rule, decide_eq_true_eq, Seconds.le, t60_val]

theorem timerUpdate_dt_threshold (rule : s.cfg.timerRule = .threshold) (d : Seconds) : (s.timerUpdate d).dt.toNat =
    if 1 / 60 ≤ s.tacc.val + d.val ∧ 0 < s.dt.toNat then s.dt.toNat - 1 else s.dt.toNat := by
  simp only [timerUpdate_dt_toNat, timerFires_threshold rule, Seconds.add_val]

/-- R188 (a). -/
theorem timerUpdate_dt_of_below (rule : s.cfg.timerRule = .threshold) (below : s.tacc.val + d.val < 1 / 60) :
    (s.timerUpdate d).dt = s.dt := by
  refine BitVec.eq_of_toNat_eq ?_
  rw [timerUpdate_dt_threshold rule, if_neg fun fires => not_le_of_gt below fires.1]

/-- R188 (b), (c): at 0, `DT - 1` is 0. -/
theorem timerUpdate_dt_of_reached (rule : s.cfg.timerRule = .threshold) (reached : 1 / 60 ≤ s.tacc.val + d.val) :
    (s.timerUpdate d).dt.toNat = s.dt.toNat - 1 := by
  rw [timerUpdate_dt_threshold rule]
  split
  · rfl
  · rename_i stands
    have zero : ¬ 0 < s.dt.toNat := fun positive => stands ⟨reached, positive⟩
    omega

/-- R187: the driver's own call. -/
theorem step_of_timerUpdate {rest : List DriverCall} (call : s.calls = .timerUpdate d :: rest) :
    step s = .next (s.timerUpdate d).endCall := by
  simp only [step, nextCall, call]

/-- R108: the inputs of a tick are those of its call. -/
theorem input_of_tick {inp : TickInput} {rest : List DriverCall} (call : s.calls = .tick inp :: rest) :
    s.input = inp := by
  simp only [State.input, call]

/-- Settles O20: the rule is `timerUpdate_dt_threshold`, and both calls make the update `State.timerUpdate`. -/
theorem timerUpdateFollowsThreshold : Obligations.TimerUpdateFollowsThreshold := by
  intro s d rule
  refine ⟨⟨rfl, timerUpdate_dt_threshold rule d, rfl, timerUpdate_frame s d⟩, ?_, ?_⟩
  · exact fun _ _ call => step_of_timerUpdate call
  · rintro inp _ call rfl
    rw [State.beginTick, input_of_tick call]

/-! ### A run of updates -/

/-- `n` updates by `d`. -/
def State.timerUpdates (s : State) (d : Seconds) (n : Nat) : State := (fun u : State => u.timerUpdate d)^[n] s

theorem timerUpdates_succ (s : State) (d : Seconds) (n : Nat) :
    s.timerUpdates d (n + 1) = (s.timerUpdates d n).timerUpdate d := Function.iterate_succ_apply' _ _ _

theorem timerUpdates_cfg (s : State) (d : Seconds) (n : Nat) : (s.timerUpdates d n).cfg = s.cfg := by
  induction n with
  | zero => rfl
  | succ n ih => rw [timerUpdates_succ, timerUpdate_cfg, ih]

theorem timerUpdates_tacc_val (s : State) (d : Seconds) (n : Nat) :
    (s.timerUpdates d n).tacc.val = s.tacc.val + n * d.val := by
  induction n with
  | zero => simp [State.timerUpdates]
  | succ n ih => rw [timerUpdates_succ, timerUpdate_tacc_val, ih]; push_cast; ring

/-- Once the first update reaches the threshold, every one of them lowers DT. -/
theorem timerUpdates_dt_of_reached (rule : s.cfg.timerRule = .threshold) (reached : 1 / 60 ≤ s.tacc.val + d.val)
    (n : Nat) : (s.timerUpdates d n).dt.toNat = s.dt.toNat - n := by
  induction n with
  | zero => rfl
  | succ n ih =>
    have rule' : (s.timerUpdates d n).cfg.timerRule = .threshold := by rw [timerUpdates_cfg, rule]
    have reached' : 1 / 60 ≤ (s.timerUpdates d n).tacc.val + d.val := by
      have grown : 0 ≤ n * d.val := mul_nonneg n.cast_nonneg d.nonneg
      rw [timerUpdates_tacc_val]
      linarith
    rw [timerUpdates_succ, timerUpdate_dt_of_reached rule' reached', ih, Nat.sub_sub]

/-- R188 (d). -/
theorem sixty_timerUpdates (rule : s.cfg.timerRule = .threshold) (dt : s.dt = 100) (tacc : s.tacc = Seconds.zero) :
    (s.timerUpdates t60 60).dt = 40 ∧ (s.timerUpdates t60 60).tacc.val = 1 := by
  have start : s.tacc.val = 0 := congrArg Seconds.val tacc
  have reached : 1 / 60 ≤ s.tacc.val + t60.val := by rw [start, t60_val, zero_add]
  constructor
  · refine BitVec.eq_of_toNat_eq ?_
    rw [timerUpdates_dt_of_reached rule reached, dt]
    rfl
  · rw [timerUpdates_tacc_val, start, t60_val]
    norm_num

/-- Settles O21: (a) to (c) are one update below and above the threshold, (d) a run of them, (e) the boolean is
`State.timerFires`. -/
theorem timerConsequences : Obligations.TimerConsequences := by
  refine ⟨fun _ _ => timerUpdate_dt_of_below, fun s d rule past => ?_, fun _ => sixty_timerUpdates,
    fun s d => ⟨s.timerFires (s.tacc.add d), timerUpdate_dt_toNat s d⟩⟩
  have reached : 1 / 60 ≤ s.tacc.val + d.val := le_add_of_le_of_nonneg past d.nonneg
  exact ⟨reached, timerUpdate_dt_of_reached rule reached⟩

end Sys2Proof.Machine
end

section
/-! PROOFS. Reset and loading (70_reset_and_hazards.md): Load and the load port (R201, R210), a core just constructed and
ticked or loaded (R203, R214), the resting point (R204), and the ports (R210). -/

namespace Sys2Proof.Machine

open Sys2Proof

variable {s t : State} {parts : List Part}

/-! ### Load -/

theorem UnchangedBut.mono {parts' : List Part} (h : UnchangedBut parts s t) (sub : parts ⊆ parts') :
    UnchangedBut parts' s t :=
  fun p hp => h p fun mem => hp (sub mem)

theorem load_frame (s : State) (bytes : List Byte) : UnchangedBut [.memory] s (s.load bytes) := pokes_frame s _ _

theorem loadByte_frame (s : State) (addr : Addr) (b : Byte) : UnchangedBut [.memory] s (s.loadByte addr b) := by
  intro p hp
  have refl := Part.same_refl s p
  cases p with
  | memory => simp at hp
  | _ => exact refl

/-- A call that writes memory and ends changes memory and the call's bookkeeping. -/
theorem UnchangedBut.endCall (h : UnchangedBut [.memory] s t) : UnchangedBut [.memory, .outside] s t.endCall :=
  (h.mono (by simp)).trans ((endCall_frame t).mono (by simp))

theorem step_of_load {bytes : List Byte} {rest : List DriverCall} (call : s.calls = .load bytes :: rest) :
    step s = .next (s.load bytes).endCall := by
  simp only [step, nextCall, call]

theorem step_of_loadByte {addr : Addr} {b : Byte} {rest : List DriverCall}
    (call : s.calls = .loadByte addr b :: rest) : step s = .next (s.loadByte addr b).endCall := by
  simp only [step, nextCall, call]

/-- R201: a byte that fits is placed. -/
theorem load_peek_placed (sorted : s.Sorted) {bytes : List Byte} {j : Nat} (h : j < bytes.length)
    (fits : s.cfg.progBase.toNat + j < memSize) : (s.load bytes).peek (s.cfg.progBase.toNat + j) = bytes[j] := by
  have kept : j < (bytes.take (memSize - s.cfg.progBase.toNat)).length := by
    rw [List.length_take]; omega
  rw [State.load, pokes_peek_offset sorted, List.getD_eq_getElem _ _ kept, List.getElem_take]

/-- R201: an address that no byte reaches keeps its own. -/
theorem load_peek_outside (sorted : s.Sorted) {bytes : List Byte} {a : Nat}
    (outside : a < s.cfg.progBase.toNat ∨ s.cfg.progBase.toNat + bytes.length ≤ a ∨ memSize ≤ a) :
    (s.load bytes).peek a = s.peek a := by
  refine pokes_peek_outside sorted ?_
  have base : s.cfg.progBase.toNat < memSize := s.cfg.progBase.isLt
  rw [List.length_take]
  omega

/-- Settles O45: Load is a block write of the bytes that fit, and then its call is over. -/
theorem loadPlacesBytes : Obligations.LoadPlacesBytes := by
  intro s bytes rest wf call
  obtain ⟨sorted, -⟩ := wf
  refine ⟨(s.load bytes).endCall, step_of_load call, ?_, rfl, rfl, fun j h fits => load_peek_placed sorted h fits,
    fun a outside => load_peek_outside sorted outside, (load_frame s bytes).endCall⟩
  rw [endCall_calls, load_calls, call, List.tail_cons]

/-! ### The load port -/

theorem loadByte_eq_poke {addr : Addr} (b : Byte) (above : s.cfg.progBase.toNat ≤ addr.toNat) :
    s.loadByte addr b = s.poke addr.toNat b := by
  rw [State.loadByte, if_pos above, State.poke]

/-- R201, R210: a block write from PROG_BASE upward is a run of writes of the load port, from any place `k` of the run
on. -/
theorem pokes_eq_foldl_loadByte {base : Nat} (bytes : List Byte) : ∀ (k : Nat) (s : State),
    s.cfg.progBase.toNat = base → base + k + bytes.length ≤ memSize →
    s.pokes (base + k) bytes =
      (bytes.zipIdx k).foldl (fun t p => t.loadByte (BitVec.ofNat 12 (base + p.2)) p.1) s := by
  induction bytes with
  | nil => exact fun _ _ _ _ => rfl
  | cons b bytes ih =>
    intro k s progBase fits
    rw [List.length_cons] at fits
    have address : (BitVec.ofNat 12 (base + k)).toNat = base + k :=
      (BitVec.toNat_ofNat _ _).trans (Nat.mod_eq_of_lt (show base + k < memSize by omega))
    have write : s.loadByte (BitVec.ofNat 12 (base + k)) b = s.poke (base + k) b := by
      rw [loadByte_eq_poke b (by omega), address]
    rw [List.zipIdx_cons, List.foldl_cons, write]
    exact ih (k + 1) (s.poke (base + k) b) progBase (by omega)

theorem load_of_fits {bytes : List Byte} (fits : s.cfg.progBase.toNat + bytes.length ≤ memSize) :
    s.load bytes = s.pokes s.cfg.progBase.toNat bytes := by
  rw [State.load, List.take_of_length_le (by omega)]

/-- Settles O59: one write by `loadByte_peek`, a run of them by `pokes_eq_foldl_loadByte`. -/
theorem loadPortWritesOneByte : Obligations.LoadPortWritesOneByte := by
  refine ⟨fun s addr b rest wf call => ?_, fun s bytes fits => ?_⟩
  · obtain ⟨sorted, -⟩ := wf
    have peek := loadByte_peek sorted addr b
    refine ⟨(s.loadByte addr b).endCall, step_of_loadByte call, ?_, rfl, rfl,
      fun above => (peek _).trans (if_pos ⟨above, rfl⟩), fun a other => (peek a).trans (if_neg ?_),
      (loadByte_frame s addr b).endCall⟩
    · rw [endCall_calls, loadByte_calls, call, List.tail_cons]
    · omega
  · rw [load_of_fits fits]
    exact pokes_eq_foldl_loadByte bytes 0 s rfl fits

/-! ### A core just constructed -/

/-- The invariant of a core just constructed does not depend on the driver's pending calls. -/
theorem construct_calls_inv {c : Config} (wf : c.wf = true) (calls : List DriverCall) :
    State.Inv { State.construct c with calls := calls } :=
  { construct_inv wf with }

theorem progBase_ge_of_wf {c : Config} (wf : c.wf = true) : 80 ≤ c.progBase.toNat := by
  simp only [Config.wf, Bool.and_eq_true, decide_eq_true_eq] at wf
  exact wf.2

/-- Settles O60: construction meets the premises but for the image, and Load, which keeps the invariant, writes the
image above the font. -/
theorem loadAfterConstructionLaunches : Obligations.LoadAfterConstructionLaunches := by
  rintro c s image rest wf fits rfl
  have inv := construct_calls_inv wf (.load image :: rest)
  obtain ⟨sorted, -⟩ := inv.memWf
  have kept := endCall_inv (load_inv image inv)
  refine ⟨_, step_of_load rfl, ⟨⟨rfl, addr_setWidth_toNat _, rfl, fun j h => ?_, kept⟩, fun a h => ?_⟩,
    ⟨construct_reg c, rfl, rfl, rfl, Frame.pixel_blank⟩, rfl, rfl⟩
  · exact load_peek_placed sorted h (Nat.lt_of_lt_of_le (Nat.add_lt_add_left h _) fits)
  · have below : a < c.progBase.toNat := Nat.lt_of_lt_of_le h (progBase_ge_of_wf wf)
    exact (load_peek_outside sorted (.inl below)).trans (initByte_font c h)

/-- R42, R203: with the font below PROG_BASE, the word there is 0. -/
theorem construct_fetch {c : Config} (wf : c.wf = true) (room : c.progBase.toNat ≤ 0xFFE) :
    (State.construct c).fetch = some 0 := by
  have pc : (State.construct c).pc.toNat = c.progBase.toNat := addr_setWidth_toNat c.progBase
  have above := progBase_ge_of_wf wf
  rw [fetch_of_lt (by rw [pc, memSize]; omega), pc, construct_peek, construct_peek, initByte_above c above,
    initByte_above c (by omega)]
  rfl

/-- Settles O47: the word 0 does not decode. -/
theorem tickWithoutLoadHalts : Obligations.TickWithoutLoadHalts := by
  rintro c _ wf room ⟨calls, draws, rfl⟩ call
  have fetched := construct_fetch wf room
  have decoded : decode 0 = none := by decide
  exact ⟨_, step_of_decode_none call rfl fetched decoded,
    beginTick_raise_endCall_tickFaulted _ (congrArg (·.getD 0) fetched)⟩

/-! ### The resting point -/

/-- An address of memory, as a word, survives the cut to 12 bits. -/
theorem setWidth_addr_setWidth {pc : Word} (inside : pc.toNat < memSize) : (pc.setWidth 12).setWidth 16 = pc := by
  rw [memSize] at inside
  bv_omega

/-- R92: the word of a JP to an address of memory. -/
theorem encode_jp_setWidth {pc : Word} (inside : pc.toNat < memSize) :
    encode (.jp (pc.setWidth 12)) = 0x1000 ||| pc := by
  rw [encode, encodeNnn_eq_or, setWidth_addr_setWidth inside]
  rfl

/-- R131: a JP to the address it lies at does nothing. -/
theorem exec_jp_self (inside : s.pc.toNat < memSize) : exec (.jp (s.pc.setWidth 12)) s = .next s := by
  rw [exec, execJp, setWidth_addr_setWidth inside]
  rfl

/-- R204: at rest a tick is the timer update, the DIRTY clear and the end of the call. -/
theorem State.Resting.step_eq (h : s.Resting) (call : s.nextIsTick = true) : step s = .next s.beginTick.endCall := by
  obtain ⟨running, inside, fetched⟩ := h
  have executes : s.Executes (.jp (s.pc.setWidth 12)) :=
    ⟨call, running, _, fetched, by rw [← encode_jp_setWidth inside, decode_encode]⟩
  exact executes.step_eq.trans (congrArg endOutcome (exec_jp_self (s := s.beginTick) inside))

/-- R100, steps 2 and 3, and the end of the call. -/
theorem beginTick_endCall_frame (s : State) :
    UnchangedBut [.delay, .elapsed, .dirty, .outside] s s.beginTick.endCall := by
  intro p hp
  have refl := Part.same_refl s p
  cases p with
  | delay | elapsed | dirty | outside => simp at hp
  | _ => exact refl

/-- Settles O56: PC, memory and FAULT, which make a resting point, are none of what the tick there changes. -/
theorem restingPointStays : Obligations.RestingPointStays :=
  fun s rest call => ⟨s.beginTick.endCall, rest.step_eq call, rfl, rfl, rfl, beginTick_endCall_frame s, rest⟩

/-! ### The ports -/

/-- R210: the pixel of each bit of the frame-buffer port. -/
theorem ports_fb (s : State) {yy xx : Nat} (hy : yy < 32) (hx : xx < 64) :
    s.ports.fb.getLsbD (64 * yy + xx) = s.fb.pixel yy xx := by
  have row : (64 * yy + xx) / 64 = yy := by omega
  have column : (64 * yy + xx) % 64 = xx := by omega
  rw [State.ports, BitVec.getLsbD_ofFnLE, dif_pos (show 64 * yy + xx < 2048 by omega), row, column]

theorem frac_val (n d : Nat) : (Seconds.frac n d).val = n / d := by
  simp [Seconds.frac, Rat.mkRat_eq_div]

/-- R210: `n` units of `1 / d` second, in exact arithmetic. -/
theorem frac_val_mul (n : Nat) {d : Nat} (positive : 0 < d) : (Seconds.frac n d).val * d = n := by
  rw [frac_val, div_mul_cancel₀ _ (Nat.cast_ne_zero.2 positive.ne')]

/-- R9, R210: `u` units of the clock `60 * u` are one sixtieth of a second. -/
theorem frac_eq_t60 {u : Nat} (positive : 0 < u) : Seconds.frac u (60 * u) = t60 := by
  have val : mkRat u (60 * u) = mkRat 1 60 := by
    simpa using Rat.mkRat_mul_right (n := 1) (d := 60) positive.ne'
  simp only [t60, Seconds.frac, val, Nat.cast_one]

/-- Settles O58: the bits of the frame-buffer port and the units of the `dt` port are computed; the rest is how the
ports and the strobes are read off the state and a tick's inputs. -/
theorem portsShowTheState : Obligations.PortsShowTheState := by
  refine ⟨fun s _ _ => ports_fb s, fun s => ⟨rfl, rfl, rfl⟩, fun s r latched => ?_, fun s running => ?_,
    fun u d key rnd positive => ⟨?_, frac_eq_t60 positive, rfl, fun k h => Vector.getElem_ofFn h⟩,
    fun s f => ⟨fun _ _ _ => rfl, rfl, fun _ _ => rfl, rfl⟩⟩
  · simp only [State.ports, latched, Option.map_some, Option.getD_some, and_self]
  · simp only [State.ports, running, Option.map_none, Option.getD_none, and_self]
  · have units := frac_val_mul d (Nat.mul_pos (show 0 < 60 by decide) positive)
    push_cast at units
    exact units

end Sys2Proof.Machine
end

section
/-! PROOFS. A run of timer updates in which the rule does not fire at first, and the vector of 95_test_vectors.md 2.7
that tells the two timer readings of C3 apart (assumption 11). -/

namespace Sys2Proof.Machine

open Sys2Proof

variable {s : State} {d : Seconds}

/-! ### The alternative reading of C3 -/

theorem timerFires_sinceLast (rule : s.cfg.timerRule = .sinceLast) (tacc : Seconds) :
    s.timerFires tacc = true ↔ s.tlast.val + 1 / 60 ≤ tacc.val := by
  simp only [State.timerFires, rule, decide_eq_true_eq, Seconds.le, Seconds.add_val, t60_val]

/-- C3's alternative: an update that is due lowers DT and marks the moment. -/
theorem timerUpdate_of_due (rule : s.cfg.timerRule = .sinceLast) (due : s.tlast.val + 1 / 60 ≤ (s.tacc.add d).val)
    (positive : s.dt ≠ 0) :
    s.timerUpdate d = { s with tacc := s.tacc.add d, dt := s.dt - 1, tlast := s.tacc.add d } := by
  have fires : (decide (s.dt ≠ 0) && s.timerFires (s.tacc.add d)) = true :=
    Bool.and_eq_true_iff.2 ⟨decide_eq_true positive, (timerFires_sinceLast rule _).2 due⟩
  simp only [State.timerUpdate, fires, rule, beq_self_eq_true, Bool.and_self, if_true]

/-! ### Updates at which the rule does not fire -/

/-- Under every rule of the configuration, an update that does not fire only adds to TACC. -/
theorem timerUpdate_of_not_fires (silent : s.timerFires (s.tacc.add d) = false) :
    s.timerUpdate d = { s with tacc := s.tacc.add d } := by
  simp [State.timerUpdate, silent]

theorem timerUpdates_add (s : State) (d : Seconds) (m n : Nat) :
    s.timerUpdates d (m + n) = (s.timerUpdates d m).timerUpdates d n := by
  rw [add_comm, State.timerUpdates, Function.iterate_add_apply]
  rfl

/-- A run that ends before the rule fires only adds to TACC. -/
theorem timerUpdates_of_not_fires {n : Nat}
    (silent : ∀ tacc : Seconds, tacc.val ≤ s.tacc.val + n * d.val → s.timerFires tacc = false) :
    s.timerUpdates d n = { s with tacc := (s.timerUpdates d n).tacc } := by
  induction n with
  | zero => rfl
  | succ n ih =>
    have nonneg := d.nonneg
    have before : s.timerUpdates d n = { s with tacc := (s.timerUpdates d n).tacc } := by
      refine ih fun tacc le => silent tacc ?_
      push_cast
      linarith
    have last : (s.timerUpdates d n).timerFires ((s.timerUpdates d n).tacc.add d) = false := by
      rw [before]
      refine silent _ (le_of_eq ?_)
      rw [Seconds.add_val, timerUpdates_tacc_val]
      push_cast
      ring
    rw [timerUpdates_succ, timerUpdate_of_not_fires last, before]

theorem timerUpdates_of_below (rule : s.cfg.timerRule = .threshold) {n : Nat}
    (below : s.tacc.val + n * d.val < 1 / 60) :
    s.timerUpdates d n = { s with tacc := (s.timerUpdates d n).tacc } := by
  refine timerUpdates_of_not_fires fun tacc le => Bool.eq_false_iff.2 fun fires => ?_
  have reached := (timerFires_threshold rule tacc).1 fires
  linarith

theorem timerUpdates_of_not_due (rule : s.cfg.timerRule = .sinceLast) {n : Nat}
    (early : s.tacc.val + n * d.val < s.tlast.val + 1 / 60) :
    s.timerUpdates d n = { s with tacc := (s.timerUpdates d n).tacc } := by
  refine timerUpdates_of_not_fires fun tacc le => Bool.eq_false_iff.2 fun fires => ?_
  have due := (timerFires_sinceLast rule tacc).1 fires
  linarith

/-! ### The vector of 2.7 -/

/-- R187: the first nine updates stay below the threshold, and each of the other five lowers DT. -/
theorem fourteen_timerUpdates_threshold (rule : s.cfg.timerRule = .threshold) (dt : s.dt = 5)
    (tacc : s.tacc.val = 0) (short : d.val = 1 / 600) : (s.timerUpdates d 14).dt = 0 := by
  have wait : s.timerUpdates d 9 = { s with tacc := (s.timerUpdates d 9).tacc } :=
    timerUpdates_of_below rule (by rw [tacc, short]; norm_num)
  have rule' : (s.timerUpdates d 9).cfg.timerRule = .threshold := by rw [timerUpdates_cfg, rule]
  have reached : 1 / 60 ≤ (s.timerUpdates d 9).tacc.val + d.val := by
    rw [timerUpdates_tacc_val, tacc, short]
    norm_num
  have dt' : (s.timerUpdates d 9).dt = 5 := by rw [wait, dt]
  refine BitVec.eq_of_toNat_eq ?_
  rw [timerUpdates_add s d 9 5, timerUpdates_dt_of_reached rule' reached, dt']
  rfl

/-- C3's alternative: the tenth update lowers DT and moves the mark, and the other four come too early after it. -/
theorem fourteen_timerUpdates_sinceLast (rule : s.cfg.timerRule = .sinceLast) (dt : s.dt = 5)
    (tacc : s.tacc.val = 0) (tlast : s.tlast.val = 0) (short : d.val = 1 / 600) : (s.timerUpdates d 14).dt = 4 := by
  have wait : s.timerUpdates d 9 = { s with tacc := (s.timerUpdates d 9).tacc } :=
    timerUpdates_of_not_due rule (by rw [tacc, tlast, short]; norm_num)
  have rule' : (s.timerUpdates d 9).cfg.timerRule = .sinceLast := by rw [timerUpdates_cfg, rule]
  have dt' : (s.timerUpdates d 9).dt = 5 := by rw [wait, dt]
  have due : (s.timerUpdates d 9).tlast.val + 1 / 60 ≤ ((s.timerUpdates d 9).tacc.add d).val := by
    rw [Seconds.add_val, timerUpdates_tacc_val, wait, tlast, tacc, short]
    norm_num
  have tenth := timerUpdate_of_due rule' due (by rw [dt']; decide)
  rw [← timerUpdates_succ] at tenth
  have wait' := timerUpdates_of_not_due (s := s.timerUpdates d 10) (d := d) (n := 4)
    (by rw [timerUpdates_cfg, rule]) (by rw [tenth, short]; norm_num)
  rw [timerUpdates_add s d 10 4, wait', tenth, dt']
  rfl

/-- Settles O22: both readings wait for nine updates; they part at what the tenth leaves behind. -/
theorem timerReadingsDiffer : Obligations.TimerReadingsDiffer := by
  intro s dt tacc tlast
  have start : s.tacc.val = 0 := congrArg Seconds.val tacc
  have mark : s.tlast.val = 0 := congrArg Seconds.val tlast
  have short : (Seconds.frac 1 600).val = 1 / 600 := by rw [frac_val]; norm_num
  exact ⟨fun rule => fourteen_timerUpdates_threshold rule dt start short,
    fun rule => fourteen_timerUpdates_sinceLast rule dt start mark short⟩

end Sys2Proof.Machine
end

section
/-! PROOFS. The words that 95_test_vectors.md 2.1 lists: a legal one is the encoding of its instruction (R92), an illegal
one is in no class of R87. -/

namespace Sys2Proof

/-- Settles O1: the legal words are encodings, and the others are in no class of `LegalWordsByClass`. -/
theorem specWordsDecodeAsListed : Obligations.SpecWordsDecodeAsListed := by
  have none_of_no_class {w : Word} := mt (legalWordsByClass w).1
  simp only [Option.not_isSome_iff_eq_none] at none_of_no_class
  exact ⟨decode_encode .cls, decode_encode (.se 0xA 0x7F), decode_encode (.shl 1 2), decode_encode (.shr 1 2),
    decode_encode (.ldI 0x123), decode_encode (.drw 5 0xA 3), decode_encode (.ldVxI 4),
    none_of_no_class (by decide), none_of_no_class (by decide), none_of_no_class (by decide)⟩

end Sys2Proof
end
